-- ==== Sys2Proof/Word.lean ====
section
/-! DEFINITION. The words of the block: register words, memory bytes, access commands, byte lanes, and the index
types of its replicated parts (00_scope.md R8, R10; 30_encoding.md R100, R101). -/

namespace Sys2Proof

/-- A 32-bit register word, bit 0 least significant (R8, R10); also a byte address of the memory image (R70). -/
abbrev Word := BitVec 32

/-- One byte of the memory image (R70). -/
abbrev Byte := BitVec 8

/-- The 28-bit access command word CMD: bit 27 is W, bits 26:0 are OFF (R100). -/
abbrev Cmd := BitVec 28

/-- The byte-lane enables BE[3:0] of an access (R101). -/
abbrev Lanes := BitVec 4

/-- A DMA channel number, 0 to 15 (R8). -/
abbrev Channel := Fin 16

/-- A timer match slot number, 0 to 3 (R8). -/
abbrev Slot := Fin 4

/-- An LCD frame-DMA channel number, 0 or 1 (R8). -/
abbrev LcdCh := Fin 2

/-- A GPIO bank number, 0 to 2 (R8). -/
abbrev Bank := Fin 3

/-- One bus access, the tuple (CMD, BE, DATA) (R100, R101). -/
structure Access where
  /-- The command word: register and direction. -/
  cmd : Cmd
  /-- The byte-lane enables. -/
  be : Lanes
  /-- The write data, ignored on a read. -/
  data : Word
deriving DecidableEq, Repr

end Sys2Proof
end

