-- ==== Sys2Proof/Config.lean ====
section
/-! DEFINITION. The parameters 00_scope.md R9 leaves open. Each open value is an opaque constant with no body, so that
nothing proved of the model leans on a number the spec does not give. The spec's defaults for a simulator stand beside
them as plain functions that no rule of the model reads. -/

namespace Sys2Proof

/-- The scheduled events that one tick can fire (40_dispatcher.md R138). -/
inductive Event where
  /-- `Tmr(i)`: match event of timer slot i (42_timer.md R212). -/
  | tmr (i : Slot)
  /-- `Dma(ch)`: completion event of DMA channel ch (41_dma.md R165). -/
  | dma (ch : Channel)
  /-- `Lcd(n)`: end-of-frame event of LCD channel n (44_lcd.md R264). -/
  | lcd (n : LcdCh)
deriving DecidableEq, Repr

namespace Config

/-- One less than `DMA_DURATION(len, size)`, so that the duration is at least 1 (41_dma.md R172, D23).
DESIGN CHOICE of form only, safe: see log entry 7. -/
opaque dmaDurationLessOne : BitVec 13 → BitVec 2 → Nat

/-- `DMA_DURATION(len, size)`: ticks from a descriptor load to its completion event, at least 1 (R9, R172). -/
def dmaDuration (len : BitVec 13) (size : BitVec 2) : Nat := dmaDurationLessOne len size + 1

/-- One less than `LCD_PERIOD(lpp, pcd)`, so that the period is at least 1 (44_lcd.md R277, D29).
DESIGN CHOICE of form only, safe: see log entry 8. -/
opaque lcdPeriodLessOne : BitVec 10 → BitVec 8 → Nat

/-- `LCD_PERIOD(lpp, pcd)`: ticks from a branch-descriptor load to the end of frame, at least 1 (R9, R277). -/
def lcdPeriod (lpp : BitVec 10) (pcd : BitVec 8) : Nat := lcdPeriodLessOne lpp pcd + 1

/-- The order in which the events of one tick fire, as a rank that differs freely from tick to tick: smaller ranks fire
first (40_dispatcher.md R139, D9). The first argument is the draw number of the tick. Log entry 6. -/
opaque tieRank : Nat → Event → Nat

/-- `AUDIO_READ(off)`: any word, and it may differ from read to read (R134, D35). The first argument is the draw number
of the read, the second the byte offset with its low two bits clear. Log entry 4. -/
opaque audioRead : Nat → BitVec 27 → Word

/-- `PALETTE_INIT`: the content of palette entry k after the reset with this draw number (10_state.md R52, D36).
Log entry 5. -/
opaque paletteInit : Nat → Fin 256 → Word

/-- The content of the shared memory image before anything has written an address: any content, the environment's
(20_memory.md R71, U8). Log entry 9. -/
opaque initialByte : Word → Byte

/-- What `MemRead` returns at an address that is not plain memory when the environment's script of answers is used up: any
byte, and it may differ from access to access (20_memory.md R71, R79, U8). The first argument is how many accesses have
reached such addresses before. Log entry 11. -/
opaque portByte : Nat → Word → Byte

/-- Bits 31:27 of `BASE`, which is a multiple of 2^27 (R9, D2). No rule reads it. Log entry 20. -/
opaque basePage : BitVec 5

/-- `BASE`: the bus address of block-relative offset 0 (R9). No rule reads it. -/
def base : Word := basePage ++ (0 : BitVec 27)

/-- One less than the numerator and the denominator of the positive rational `TICK_HZ` (R9, D40). No rule reads it.
Log entry 20. -/
opaque tickHzLessOne : Nat × Nat

/-- `TICK_HZ`: counter ticks per second, as numerator and denominator, both positive (R9). -/
def tickHz : Nat × Nat := (tickHzLessOne.1 + 1, tickHzLessOne.2 + 1)

/-- Bytes per burst that the default duration uses for each SIZE (R172). -/
def defaultBurst (size : BitVec 2) : Nat :=
  match size.toNat with
  | 0 => 8
  | 1 => 8
  | 2 => 16
  | _ => 32

/-- The spec's default duration for a simulator, `max(1, ceil(len / burst(size)))` (R172). The model does not read it. -/
def defaultDmaDuration (len : BitVec 13) (size : BitVec 2) : Nat :=
  max 1 ((len.toNat + defaultBurst size - 1) / defaultBurst size)

/-- The spec's default period for a simulator, `(lpp + 1) * (pcd + 1)` (R277). The model does not read it. -/
def defaultLcdPeriod (lpp : BitVec 10) (pcd : BitVec 8) : Nat := (lpp.toNat + 1) * (pcd.toNat + 1)

end Config
end Sys2Proof
end

