-- ==== Sys2Proof/Syntax.lean ====
section
/-! DEFINITION. The instructions of the block, one constructor per row of spec/opcode_table.json. An instruction is one
bus access: a read or a write of one register word (00_scope.md R5, 30_encoding.md R105 to R111, R122). The index of a
replicated register is the first operand, then the byte-lane enables, then, for a write, the data (R101). The audio range
takes two rows per direction, hence two constructors (R122). -/

namespace Sys2Proof

/-- One bus access, decoded (R105): the register, its index, the lanes BE and, for a write, DATA. -/
inductive Instr where
  /-- `RD.DCSR` (R150). -/
  | rdDcsr (ch : Channel) (be : Lanes)
  /-- `WR.DCSR` (R151). -/
  | wrDcsr (ch : Channel) (be : Lanes) (data : Word)
  /-- `RD.DINT` (R152). -/
  | rdDint (be : Lanes)
  /-- `WR.DINT` (R153). -/
  | wrDint (be : Lanes) (data : Word)
  /-- `RD.DDADR` (R154). -/
  | rdDdadr (ch : Channel) (be : Lanes)
  /-- `WR.DDADR` (R155). -/
  | wrDdadr (ch : Channel) (be : Lanes) (data : Word)
  /-- `RD.DSADR` (R156). -/
  | rdDsadr (ch : Channel) (be : Lanes)
  /-- `WR.DSADR` (R157). -/
  | wrDsadr (ch : Channel) (be : Lanes) (data : Word)
  /-- `RD.DTADR` (R158). -/
  | rdDtadr (ch : Channel) (be : Lanes)
  /-- `WR.DTADR` (R159). -/
  | wrDtadr (ch : Channel) (be : Lanes) (data : Word)
  /-- `RD.DCMD` (R160). -/
  | rdDcmd (ch : Channel) (be : Lanes)
  /-- `WR.DCMD` (R161). -/
  | wrDcmd (ch : Channel) (be : Lanes) (data : Word)
  /-- `RD.OSMR` (R200). -/
  | rdOsmr (i : Slot) (be : Lanes)
  /-- `WR.OSMR` (R201). -/
  | wrOsmr (i : Slot) (be : Lanes) (data : Word)
  /-- `RD.OSCR` (R202). -/
  | rdOscr (be : Lanes)
  /-- `WR.OSCR` (R203). -/
  | wrOscr (be : Lanes) (data : Word)
  /-- `RD.OSSR` (R204). -/
  | rdOssr (be : Lanes)
  /-- `WR.OSSR` (R205). -/
  | wrOssr (be : Lanes) (data : Word)
  /-- `RD.OIER` (R206). -/
  | rdOier (be : Lanes)
  /-- `WR.OIER` (R207). -/
  | wrOier (be : Lanes) (data : Word)
  /-- `RD.ICIP` (R230). -/
  | rdIcip (be : Lanes)
  /-- `WR.ICIP` (R231). -/
  | wrIcip (be : Lanes) (data : Word)
  /-- `RD.ICMR` (R232). -/
  | rdIcmr (be : Lanes)
  /-- `WR.ICMR` (R233). -/
  | wrIcmr (be : Lanes) (data : Word)
  /-- `RD.ICLR` (R237). -/
  | rdIclr (be : Lanes)
  /-- `WR.ICLR` (R238). -/
  | wrIclr (be : Lanes) (data : Word)
  /-- `RD.ICFP` (R239). -/
  | rdIcfp (be : Lanes)
  /-- `WR.ICFP` (R240). -/
  | wrIcfp (be : Lanes) (data : Word)
  /-- `RD.ICPR` (R241). -/
  | rdIcpr (be : Lanes)
  /-- `WR.ICPR` (R242). -/
  | wrIcpr (be : Lanes) (data : Word)
  /-- `RD.LCCR0` (R250). -/
  | rdLccr0 (be : Lanes)
  /-- `WR.LCCR0` (R251). -/
  | wrLccr0 (be : Lanes) (data : Word)
  /-- `RD.LCCR2` (R252). -/
  | rdLccr2 (be : Lanes)
  /-- `WR.LCCR2` (R253). -/
  | wrLccr2 (be : Lanes) (data : Word)
  /-- `RD.LCCR3` (R254). -/
  | rdLccr3 (be : Lanes)
  /-- `WR.LCCR3` (R255). -/
  | wrLccr3 (be : Lanes) (data : Word)
  /-- `RD.LCSR` (R256). -/
  | rdLcsr (be : Lanes)
  /-- `WR.LCSR` (R257). -/
  | wrLcsr (be : Lanes) (data : Word)
  /-- `RD.FDADR` (R258). -/
  | rdFdadr (n : LcdCh) (be : Lanes)
  /-- `WR.FDADR` (R259). -/
  | wrFdadr (n : LcdCh) (be : Lanes) (data : Word)
  /-- `RD.FSADR` (R270). -/
  | rdFsadr (n : LcdCh) (be : Lanes)
  /-- `WR.FSADR` (R271). -/
  | wrFsadr (n : LcdCh) (be : Lanes) (data : Word)
  /-- `RD.FIDR` (R272). -/
  | rdFidr (n : LcdCh) (be : Lanes)
  /-- `WR.FIDR` (R273). -/
  | wrFidr (n : LcdCh) (be : Lanes) (data : Word)
  /-- `RD.LDCMD` (R274). -/
  | rdLdcmd (n : LcdCh) (be : Lanes)
  /-- `WR.LDCMD` (R275). -/
  | wrLdcmd (n : LcdCh) (be : Lanes) (data : Word)
  /-- `RD.GPLR0` (R300). -/
  | rdGplr0 (be : Lanes)
  /-- `WR.GPLR0` (R301). -/
  | wrGplr0 (be : Lanes) (data : Word)
  /-- `RD.GPLR1` (R300). -/
  | rdGplr1 (be : Lanes)
  /-- `WR.GPLR1` (R301). -/
  | wrGplr1 (be : Lanes) (data : Word)
  /-- `RD.GPLR2` (R300). -/
  | rdGplr2 (be : Lanes)
  /-- `WR.GPLR2` (R301). -/
  | wrGplr2 (be : Lanes) (data : Word)
  /-- `RD.GPDR0` (R302). -/
  | rdGpdr0 (be : Lanes)
  /-- `WR.GPDR0` (R303). -/
  | wrGpdr0 (be : Lanes) (data : Word)
  /-- `RD.GPDR1` (R302). -/
  | rdGpdr1 (be : Lanes)
  /-- `WR.GPDR1` (R303). -/
  | wrGpdr1 (be : Lanes) (data : Word)
  /-- `RD.GPDR2` (R302). -/
  | rdGpdr2 (be : Lanes)
  /-- `WR.GPDR2` (R303). -/
  | wrGpdr2 (be : Lanes) (data : Word)
  /-- `RD.GPSR0` (R304). -/
  | rdGpsr0 (be : Lanes)
  /-- `WR.GPSR0` (R305). -/
  | wrGpsr0 (be : Lanes) (data : Word)
  /-- `RD.GPSR1` (R304). -/
  | rdGpsr1 (be : Lanes)
  /-- `WR.GPSR1` (R305). -/
  | wrGpsr1 (be : Lanes) (data : Word)
  /-- `RD.GPSR2` (R304). -/
  | rdGpsr2 (be : Lanes)
  /-- `WR.GPSR2` (R305). -/
  | wrGpsr2 (be : Lanes) (data : Word)
  /-- `RD.GPCR0` (R306). -/
  | rdGpcr0 (be : Lanes)
  /-- `WR.GPCR0` (R307). -/
  | wrGpcr0 (be : Lanes) (data : Word)
  /-- `RD.GPCR1` (R306). -/
  | rdGpcr1 (be : Lanes)
  /-- `WR.GPCR1` (R307). -/
  | wrGpcr1 (be : Lanes) (data : Word)
  /-- `RD.GPCR2` (R306). -/
  | rdGpcr2 (be : Lanes)
  /-- `WR.GPCR2` (R307). -/
  | wrGpcr2 (be : Lanes) (data : Word)
  /-- `RD.GRER0` (R308). -/
  | rdGrer0 (be : Lanes)
  /-- `WR.GRER0` (R309). -/
  | wrGrer0 (be : Lanes) (data : Word)
  /-- `RD.GRER1` (R308). -/
  | rdGrer1 (be : Lanes)
  /-- `WR.GRER1` (R309). -/
  | wrGrer1 (be : Lanes) (data : Word)
  /-- `RD.GRER2` (R308). -/
  | rdGrer2 (be : Lanes)
  /-- `WR.GRER2` (R309). -/
  | wrGrer2 (be : Lanes) (data : Word)
  /-- `RD.GFER0` (R310). -/
  | rdGfer0 (be : Lanes)
  /-- `WR.GFER0` (R311). -/
  | wrGfer0 (be : Lanes) (data : Word)
  /-- `RD.GFER1` (R310). -/
  | rdGfer1 (be : Lanes)
  /-- `WR.GFER1` (R311). -/
  | wrGfer1 (be : Lanes) (data : Word)
  /-- `RD.GFER2` (R310). -/
  | rdGfer2 (be : Lanes)
  /-- `WR.GFER2` (R311). -/
  | wrGfer2 (be : Lanes) (data : Word)
  /-- `RD.GEDR0` (R312). -/
  | rdGedr0 (be : Lanes)
  /-- `WR.GEDR0` (R313). -/
  | wrGedr0 (be : Lanes) (data : Word)
  /-- `RD.GEDR1` (R312). -/
  | rdGedr1 (be : Lanes)
  /-- `WR.GEDR1` (R313). -/
  | wrGedr1 (be : Lanes) (data : Word)
  /-- `RD.GEDR2` (R312). -/
  | rdGedr2 (be : Lanes)
  /-- `WR.GEDR2` (R313). -/
  | wrGedr2 (be : Lanes) (data : Word)
  /-- `RD.AUDIO`, the row of words 0 to 31 (R134). -/
  | rdAudio (word : Fin 32) (be : Lanes)
  /-- `WR.AUDIO`, the row of words 0 to 31 (R135). -/
  | wrAudio (word : Fin 32) (be : Lanes) (data : Word)
  /-- `RD.AUDIO`, the row of word 32 (R134). -/
  | rdAudioTop (be : Lanes)
  /-- `WR.AUDIO`, the row of word 32 (R135). -/
  | wrAudioTop (be : Lanes) (data : Word)
  /-- `RD.UNMAPPED`; `off` is OFF[26:2] (R131). -/
  | rdUnmapped (off : BitVec 25) (be : Lanes)
  /-- `WR.UNMAPPED`; `off` is OFF[26:2] (R132). -/
  | wrUnmapped (off : BitVec 25) (be : Lanes) (data : Word)
deriving DecidableEq, Repr

end Sys2Proof
end

