-- ==== Sys2Proof/WellFormed.lean ====
section
/-! DEFINITION. When an instruction is one the encoding has. The index operands carry their bounds in their types; what is
left to check is that an UNMAPPED access names an offset no register and no audio word answers at
(30_encoding.md R105 to R111). The offsets are written here from the register map as byte ranges, not from the decoder's
masks, so that the two can be proved to agree. -/

namespace Sys2Proof

/-- A byte offset at which a DMA register answers (R106). -/
def dmaOffset (o : Nat) : Bool := o < 0x40 || (0xF0 ≤ o && o < 0xF4) || (0x200 ≤ o && o < 0x300)

/-- A byte offset at which a timer register answers (R107). -/
def timerOffset (o : Nat) : Bool := (0x0A00000 ≤ o && o < 0x0A00018) || (0x0A0001C ≤ o && o < 0x0A00020)

/-- A byte offset at which an interrupt-controller register answers (R108). -/
def intcOffset (o : Nat) : Bool := 0x0D00000 ≤ o && o < 0x0D00014

/-- A byte offset at which an LCD register answers (R109). -/
def lcdOffset (o : Nat) : Bool :=
  (0x4000000 ≤ o && o < 0x4000004) || (0x4000008 ≤ o && o < 0x4000010) || (0x4000038 ≤ o && o < 0x400003C) ||
    (0x4000200 ≤ o && o < 0x4000220)

/-- A byte offset at which a GPIO register answers (R110). -/
def gpioOffset (o : Nat) : Bool := 0x0E00000 ≤ o && o < 0x0E00054

/-- A byte offset of the audio range (R111). -/
def audioOffset (o : Nat) : Bool := 0x0400000 ≤ o && o < 0x0400084

/-- The byte offset is that of a register of the block or of an audio word (R104, R105). -/
def mappedOffset (o : Nat) : Bool :=
  dmaOffset o || timerOffset o || intcOffset o || lcdOffset o || gpioOffset o || audioOffset o

/-- The instruction is one the encoding has: an UNMAPPED access stands at an offset nothing else answers at. -/
def Instr.wellFormed : Instr → Bool
  | .rdUnmapped off _ => !mappedOffset (4 * off.toNat)
  | .wrUnmapped off _ _ => !mappedOffset (4 * off.toNat)
  | _ => true

end Sys2Proof
end

