-- ==== Sys2Proof/Decode.lean ====
section
/-! DEFINITION. Decoding and encoding of bus accesses (30_encoding.md R100 to R111, R114). The register map is a table of
rows, each a mask, a match and the instruction it stands for, written from spec/opcode_table.json; the decoder takes the
first row an access hits and falls back to the UNMAPPED rows, which match everything. The decoder is total (R105, R117):
every 28-bit CMD decodes to exactly one instruction. -/

namespace Sys2Proof

/-- One row of the register map: an access hits it when `CMD & mask = value` (R105). -/
structure Row where
  /-- The mnemonic of spec/opcode_table.json. -/
  mnemonic : String
  mask : Cmd
  value : Cmd
  /-- The instruction, its index fields cut out of CMD (R114). -/
  build : Cmd → Lanes → Word → Instr

/-- `(CMD & mask) = match` (R105). -/
def Row.hits (r : Row) (c : Cmd) : Bool := c &&& r.mask == r.value

/-- The 4-bit index field of CMD at bit `lo`, used unscaled (R114). -/
def index4 (c : Cmd) (lo : Nat) : Fin 16 := (c.extractLsb' lo 4).toFin

/-- The 2-bit index field of CMD at bit `lo` (R114). -/
def index2 (c : Cmd) (lo : Nat) : Fin 4 := (c.extractLsb' lo 2).toFin

/-- The 1-bit index field of CMD at bit `lo` (R114). -/
def index1 (c : Cmd) (lo : Nat) : Fin 2 := (c.extractLsb' lo 1).toFin

/-- The audio word number CMD[6:2] of words 0 to 31 (R111). -/
def index5 (c : Cmd) (lo : Nat) : Fin 32 := (c.extractLsb' lo 5).toFin

/-- DMA range (R106). -/
def dmaRows : List Row := [
  ⟨"RD.DCSR", 0xFFFFFC0, 0x0000000, fun c be _ => .rdDcsr (index4 c 2) be⟩,
  ⟨"WR.DCSR", 0xFFFFFC0, 0x8000000, fun c be d => .wrDcsr (index4 c 2) be d⟩,
  ⟨"RD.DINT", 0xFFFFFFC, 0x00000F0, fun _ be _ => .rdDint be⟩,
  ⟨"WR.DINT", 0xFFFFFFC, 0x80000F0, fun _ be d => .wrDint be d⟩,
  ⟨"RD.DDADR", 0xFFFFF0C, 0x0000200, fun c be _ => .rdDdadr (index4 c 4) be⟩,
  ⟨"WR.DDADR", 0xFFFFF0C, 0x8000200, fun c be d => .wrDdadr (index4 c 4) be d⟩,
  ⟨"RD.DSADR", 0xFFFFF0C, 0x0000204, fun c be _ => .rdDsadr (index4 c 4) be⟩,
  ⟨"WR.DSADR", 0xFFFFF0C, 0x8000204, fun c be d => .wrDsadr (index4 c 4) be d⟩,
  ⟨"RD.DTADR", 0xFFFFF0C, 0x0000208, fun c be _ => .rdDtadr (index4 c 4) be⟩,
  ⟨"WR.DTADR", 0xFFFFF0C, 0x8000208, fun c be d => .wrDtadr (index4 c 4) be d⟩,
  ⟨"RD.DCMD", 0xFFFFF0C, 0x000020C, fun c be _ => .rdDcmd (index4 c 4) be⟩,
  ⟨"WR.DCMD", 0xFFFFF0C, 0x800020C, fun c be d => .wrDcmd (index4 c 4) be d⟩]

/-- Timer range (R107). -/
def timerRows : List Row := [
  ⟨"RD.OSMR", 0xFFFFFF0, 0x0A00000, fun c be _ => .rdOsmr (index2 c 2) be⟩,
  ⟨"WR.OSMR", 0xFFFFFF0, 0x8A00000, fun c be d => .wrOsmr (index2 c 2) be d⟩,
  ⟨"RD.OSCR", 0xFFFFFFC, 0x0A00010, fun _ be _ => .rdOscr be⟩,
  ⟨"WR.OSCR", 0xFFFFFFC, 0x8A00010, fun _ be d => .wrOscr be d⟩,
  ⟨"RD.OSSR", 0xFFFFFFC, 0x0A00014, fun _ be _ => .rdOssr be⟩,
  ⟨"WR.OSSR", 0xFFFFFFC, 0x8A00014, fun _ be d => .wrOssr be d⟩,
  ⟨"RD.OIER", 0xFFFFFFC, 0x0A0001C, fun _ be _ => .rdOier be⟩,
  ⟨"WR.OIER", 0xFFFFFFC, 0x8A0001C, fun _ be d => .wrOier be d⟩]

/-- Interrupt-controller range (R108). -/
def intcRows : List Row := [
  ⟨"RD.ICIP", 0xFFFFFFC, 0x0D00000, fun _ be _ => .rdIcip be⟩,
  ⟨"WR.ICIP", 0xFFFFFFC, 0x8D00000, fun _ be d => .wrIcip be d⟩,
  ⟨"RD.ICMR", 0xFFFFFFC, 0x0D00004, fun _ be _ => .rdIcmr be⟩,
  ⟨"WR.ICMR", 0xFFFFFFC, 0x8D00004, fun _ be d => .wrIcmr be d⟩,
  ⟨"RD.ICLR", 0xFFFFFFC, 0x0D00008, fun _ be _ => .rdIclr be⟩,
  ⟨"WR.ICLR", 0xFFFFFFC, 0x8D00008, fun _ be d => .wrIclr be d⟩,
  ⟨"RD.ICFP", 0xFFFFFFC, 0x0D0000C, fun _ be _ => .rdIcfp be⟩,
  ⟨"WR.ICFP", 0xFFFFFFC, 0x8D0000C, fun _ be d => .wrIcfp be d⟩,
  ⟨"RD.ICPR", 0xFFFFFFC, 0x0D00010, fun _ be _ => .rdIcpr be⟩,
  ⟨"WR.ICPR", 0xFFFFFFC, 0x8D00010, fun _ be d => .wrIcpr be d⟩]

/-- Display range (R109). -/
def lcdRows : List Row := [
  ⟨"RD.LCCR0", 0xFFFFFFC, 0x4000000, fun _ be _ => .rdLccr0 be⟩,
  ⟨"WR.LCCR0", 0xFFFFFFC, 0xC000000, fun _ be d => .wrLccr0 be d⟩,
  ⟨"RD.LCCR2", 0xFFFFFFC, 0x4000008, fun _ be _ => .rdLccr2 be⟩,
  ⟨"WR.LCCR2", 0xFFFFFFC, 0xC000008, fun _ be d => .wrLccr2 be d⟩,
  ⟨"RD.LCCR3", 0xFFFFFFC, 0x400000C, fun _ be _ => .rdLccr3 be⟩,
  ⟨"WR.LCCR3", 0xFFFFFFC, 0xC00000C, fun _ be d => .wrLccr3 be d⟩,
  ⟨"RD.LCSR", 0xFFFFFFC, 0x4000038, fun _ be _ => .rdLcsr be⟩,
  ⟨"WR.LCSR", 0xFFFFFFC, 0xC000038, fun _ be d => .wrLcsr be d⟩,
  ⟨"RD.FDADR", 0xFFFFFEC, 0x4000200, fun c be _ => .rdFdadr (index1 c 4) be⟩,
  ⟨"WR.FDADR", 0xFFFFFEC, 0xC000200, fun c be d => .wrFdadr (index1 c 4) be d⟩,
  ⟨"RD.FSADR", 0xFFFFFEC, 0x4000204, fun c be _ => .rdFsadr (index1 c 4) be⟩,
  ⟨"WR.FSADR", 0xFFFFFEC, 0xC000204, fun c be d => .wrFsadr (index1 c 4) be d⟩,
  ⟨"RD.FIDR", 0xFFFFFEC, 0x4000208, fun c be _ => .rdFidr (index1 c 4) be⟩,
  ⟨"WR.FIDR", 0xFFFFFEC, 0xC000208, fun c be d => .wrFidr (index1 c 4) be d⟩,
  ⟨"RD.LDCMD", 0xFFFFFEC, 0x400020C, fun c be _ => .rdLdcmd (index1 c 4) be⟩,
  ⟨"WR.LDCMD", 0xFFFFFEC, 0xC00020C, fun c be d => .wrLdcmd (index1 c 4) be d⟩]

/-- GPIO range (R110). -/
def gpioRows : List Row := [
  ⟨"RD.GPLR0", 0xFFFFFFC, 0x0E00000, fun _ be _ => .rdGplr0 be⟩,
  ⟨"WR.GPLR0", 0xFFFFFFC, 0x8E00000, fun _ be d => .wrGplr0 be d⟩,
  ⟨"RD.GPLR1", 0xFFFFFFC, 0x0E00004, fun _ be _ => .rdGplr1 be⟩,
  ⟨"WR.GPLR1", 0xFFFFFFC, 0x8E00004, fun _ be d => .wrGplr1 be d⟩,
  ⟨"RD.GPLR2", 0xFFFFFFC, 0x0E00008, fun _ be _ => .rdGplr2 be⟩,
  ⟨"WR.GPLR2", 0xFFFFFFC, 0x8E00008, fun _ be d => .wrGplr2 be d⟩,
  ⟨"RD.GPDR0", 0xFFFFFFC, 0x0E0000C, fun _ be _ => .rdGpdr0 be⟩,
  ⟨"WR.GPDR0", 0xFFFFFFC, 0x8E0000C, fun _ be d => .wrGpdr0 be d⟩,
  ⟨"RD.GPDR1", 0xFFFFFFC, 0x0E00010, fun _ be _ => .rdGpdr1 be⟩,
  ⟨"WR.GPDR1", 0xFFFFFFC, 0x8E00010, fun _ be d => .wrGpdr1 be d⟩,
  ⟨"RD.GPDR2", 0xFFFFFFC, 0x0E00014, fun _ be _ => .rdGpdr2 be⟩,
  ⟨"WR.GPDR2", 0xFFFFFFC, 0x8E00014, fun _ be d => .wrGpdr2 be d⟩,
  ⟨"RD.GPSR0", 0xFFFFFFC, 0x0E00018, fun _ be _ => .rdGpsr0 be⟩,
  ⟨"WR.GPSR0", 0xFFFFFFC, 0x8E00018, fun _ be d => .wrGpsr0 be d⟩,
  ⟨"RD.GPSR1", 0xFFFFFFC, 0x0E0001C, fun _ be _ => .rdGpsr1 be⟩,
  ⟨"WR.GPSR1", 0xFFFFFFC, 0x8E0001C, fun _ be d => .wrGpsr1 be d⟩,
  ⟨"RD.GPSR2", 0xFFFFFFC, 0x0E00020, fun _ be _ => .rdGpsr2 be⟩,
  ⟨"WR.GPSR2", 0xFFFFFFC, 0x8E00020, fun _ be d => .wrGpsr2 be d⟩,
  ⟨"RD.GPCR0", 0xFFFFFFC, 0x0E00024, fun _ be _ => .rdGpcr0 be⟩,
  ⟨"WR.GPCR0", 0xFFFFFFC, 0x8E00024, fun _ be d => .wrGpcr0 be d⟩,
  ⟨"RD.GPCR1", 0xFFFFFFC, 0x0E00028, fun _ be _ => .rdGpcr1 be⟩,
  ⟨"WR.GPCR1", 0xFFFFFFC, 0x8E00028, fun _ be d => .wrGpcr1 be d⟩,
  ⟨"RD.GPCR2", 0xFFFFFFC, 0x0E0002C, fun _ be _ => .rdGpcr2 be⟩,
  ⟨"WR.GPCR2", 0xFFFFFFC, 0x8E0002C, fun _ be d => .wrGpcr2 be d⟩,
  ⟨"RD.GRER0", 0xFFFFFFC, 0x0E00030, fun _ be _ => .rdGrer0 be⟩,
  ⟨"WR.GRER0", 0xFFFFFFC, 0x8E00030, fun _ be d => .wrGrer0 be d⟩,
  ⟨"RD.GRER1", 0xFFFFFFC, 0x0E00034, fun _ be _ => .rdGrer1 be⟩,
  ⟨"WR.GRER1", 0xFFFFFFC, 0x8E00034, fun _ be d => .wrGrer1 be d⟩,
  ⟨"RD.GRER2", 0xFFFFFFC, 0x0E00038, fun _ be _ => .rdGrer2 be⟩,
  ⟨"WR.GRER2", 0xFFFFFFC, 0x8E00038, fun _ be d => .wrGrer2 be d⟩,
  ⟨"RD.GFER0", 0xFFFFFFC, 0x0E0003C, fun _ be _ => .rdGfer0 be⟩,
  ⟨"WR.GFER0", 0xFFFFFFC, 0x8E0003C, fun _ be d => .wrGfer0 be d⟩,
  ⟨"RD.GFER1", 0xFFFFFFC, 0x0E00040, fun _ be _ => .rdGfer1 be⟩,
  ⟨"WR.GFER1", 0xFFFFFFC, 0x8E00040, fun _ be d => .wrGfer1 be d⟩,
  ⟨"RD.GFER2", 0xFFFFFFC, 0x0E00044, fun _ be _ => .rdGfer2 be⟩,
  ⟨"WR.GFER2", 0xFFFFFFC, 0x8E00044, fun _ be d => .wrGfer2 be d⟩,
  ⟨"RD.GEDR0", 0xFFFFFFC, 0x0E00048, fun _ be _ => .rdGedr0 be⟩,
  ⟨"WR.GEDR0", 0xFFFFFFC, 0x8E00048, fun _ be d => .wrGedr0 be d⟩,
  ⟨"RD.GEDR1", 0xFFFFFFC, 0x0E0004C, fun _ be _ => .rdGedr1 be⟩,
  ⟨"WR.GEDR1", 0xFFFFFFC, 0x8E0004C, fun _ be d => .wrGedr1 be d⟩,
  ⟨"RD.GEDR2", 0xFFFFFFC, 0x0E00050, fun _ be _ => .rdGedr2 be⟩,
  ⟨"WR.GEDR2", 0xFFFFFFC, 0x8E00050, fun _ be d => .wrGedr2 be d⟩]

/-- Audio range, the next-lowest priority (R111). -/
def audioRows : List Row := [
  ⟨"RD.AUDIO", 0xFFFFF80, 0x0400000, fun c be _ => .rdAudio (index5 c 2) be⟩,
  ⟨"WR.AUDIO", 0xFFFFF80, 0x8400000, fun c be d => .wrAudio (index5 c 2) be d⟩,
  ⟨"RD.AUDIO", 0xFFFFFFC, 0x0400080, fun _ be _ => .rdAudioTop be⟩,
  ⟨"WR.AUDIO", 0xFFFFFFC, 0x8400080, fun _ be d => .wrAudioTop be d⟩]

/-- The rows of R106 to R110, pairwise disjoint (R105). -/
def registerRows : List Row := dmaRows ++ timerRows ++ intcRows ++ lcdRows ++ gpioRows

/-- The rows an access is tried against, in priority order, before the UNMAPPED rows (R105, R122). -/
def namedRows : List Row := registerRows ++ audioRows

/-- The write bit W of CMD (R100). -/
def cmdIsWrite (c : Cmd) : Bool := c.getLsbD 27

/-- The word offset OFF[26:2] of CMD; OFF[1:0] is ignored (R100, R105). -/
def cmdWordOffset (c : Cmd) : BitVec 25 := c.extractLsb' 2 25

/-- Decoding: the register row, else the audio row, else UNMAPPED (R105). -/
def decode (a : Access) : Instr :=
  match namedRows.find? (fun r => r.hits a.cmd) with
  | some r => r.build a.cmd a.be a.data
  | none =>
    if cmdIsWrite a.cmd then .wrUnmapped (cmdWordOffset a.cmd) a.be a.data
    else .rdUnmapped (cmdWordOffset a.cmd) a.be

/-- Why a number is no access command. Nothing else is ever rejected: no CMD is illegal (R117). -/
inductive DecodeReject where
  /-- The number does not fit the 28 bits of CMD (R100). Raised by `decodeWord`; safe: no such access exists. -/
  | widerThanCmd (w : Nat)
deriving DecidableEq, Repr

/-- The access whose CMD is the number w, with all lanes enabled, as when the requester gives no mask (R101), and zero
data. Log entry 2. -/
def accessOfWord (w : Nat) : Access := ⟨BitVec.ofNat 28 w, 0xF, 0⟩

/-- Decoding of a raw command number, rejected by name when it is wider than CMD. -/
def decodeWord (w : Nat) : Except DecodeReject Instr :=
  if w < 2 ^ 28 then .ok (decode (accessOfWord w)) else .error (.widerThanCmd w)

/-- The instruction the decoder reads from the table's word w. The table's words are CMD, 28 bits, whatever whole number
of bytes `nbits` rounds them up to. -/
def decodeTableWord (_nbits w : Nat) : Option Instr :=
  match decodeWord w with
  | .ok i => some i
  | .error _ => none

/-- The bus address of a block-relative byte offset, `BASE + OFF` (R100). -/
def busAddress (off : BitVec 27) : Word := Config.base + off.setWidth 32

/-- A command word with its index field placed at bit `lo` (R114). -/
def withIndex (value : Cmd) (lo idx : Nat) : Cmd := value ||| (BitVec.ofNat 28 idx <<< lo)

/-- The command word of an instruction, OFF[1:0] generated as 0 (R100, R106 to R111). -/
def encodeCmd : Instr → Cmd
  | .rdDcsr k _ => withIndex 0x0000000 2 k.val
  | .wrDcsr k _ _ => withIndex 0x8000000 2 k.val
  | .rdDint _ => 0x00000F0
  | .wrDint _ _ => 0x80000F0
  | .rdDdadr k _ => withIndex 0x0000200 4 k.val
  | .wrDdadr k _ _ => withIndex 0x8000200 4 k.val
  | .rdDsadr k _ => withIndex 0x0000204 4 k.val
  | .wrDsadr k _ _ => withIndex 0x8000204 4 k.val
  | .rdDtadr k _ => withIndex 0x0000208 4 k.val
  | .wrDtadr k _ _ => withIndex 0x8000208 4 k.val
  | .rdDcmd k _ => withIndex 0x000020C 4 k.val
  | .wrDcmd k _ _ => withIndex 0x800020C 4 k.val
  | .rdOsmr k _ => withIndex 0x0A00000 2 k.val
  | .wrOsmr k _ _ => withIndex 0x8A00000 2 k.val
  | .rdOscr _ => 0x0A00010
  | .wrOscr _ _ => 0x8A00010
  | .rdOssr _ => 0x0A00014
  | .wrOssr _ _ => 0x8A00014
  | .rdOier _ => 0x0A0001C
  | .wrOier _ _ => 0x8A0001C
  | .rdIcip _ => 0x0D00000
  | .wrIcip _ _ => 0x8D00000
  | .rdIcmr _ => 0x0D00004
  | .wrIcmr _ _ => 0x8D00004
  | .rdIclr _ => 0x0D00008
  | .wrIclr _ _ => 0x8D00008
  | .rdIcfp _ => 0x0D0000C
  | .wrIcfp _ _ => 0x8D0000C
  | .rdIcpr _ => 0x0D00010
  | .wrIcpr _ _ => 0x8D00010
  | .rdLccr0 _ => 0x4000000
  | .wrLccr0 _ _ => 0xC000000
  | .rdLccr2 _ => 0x4000008
  | .wrLccr2 _ _ => 0xC000008
  | .rdLccr3 _ => 0x400000C
  | .wrLccr3 _ _ => 0xC00000C
  | .rdLcsr _ => 0x4000038
  | .wrLcsr _ _ => 0xC000038
  | .rdFdadr k _ => withIndex 0x4000200 4 k.val
  | .wrFdadr k _ _ => withIndex 0xC000200 4 k.val
  | .rdFsadr k _ => withIndex 0x4000204 4 k.val
  | .wrFsadr k _ _ => withIndex 0xC000204 4 k.val
  | .rdFidr k _ => withIndex 0x4000208 4 k.val
  | .wrFidr k _ _ => withIndex 0xC000208 4 k.val
  | .rdLdcmd k _ => withIndex 0x400020C 4 k.val
  | .wrLdcmd k _ _ => withIndex 0xC00020C 4 k.val
  | .rdGplr0 _ => 0x0E00000
  | .wrGplr0 _ _ => 0x8E00000
  | .rdGplr1 _ => 0x0E00004
  | .wrGplr1 _ _ => 0x8E00004
  | .rdGplr2 _ => 0x0E00008
  | .wrGplr2 _ _ => 0x8E00008
  | .rdGpdr0 _ => 0x0E0000C
  | .wrGpdr0 _ _ => 0x8E0000C
  | .rdGpdr1 _ => 0x0E00010
  | .wrGpdr1 _ _ => 0x8E00010
  | .rdGpdr2 _ => 0x0E00014
  | .wrGpdr2 _ _ => 0x8E00014
  | .rdGpsr0 _ => 0x0E00018
  | .wrGpsr0 _ _ => 0x8E00018
  | .rdGpsr1 _ => 0x0E0001C
  | .wrGpsr1 _ _ => 0x8E0001C
  | .rdGpsr2 _ => 0x0E00020
  | .wrGpsr2 _ _ => 0x8E00020
  | .rdGpcr0 _ => 0x0E00024
  | .wrGpcr0 _ _ => 0x8E00024
  | .rdGpcr1 _ => 0x0E00028
  | .wrGpcr1 _ _ => 0x8E00028
  | .rdGpcr2 _ => 0x0E0002C
  | .wrGpcr2 _ _ => 0x8E0002C
  | .rdGrer0 _ => 0x0E00030
  | .wrGrer0 _ _ => 0x8E00030
  | .rdGrer1 _ => 0x0E00034
  | .wrGrer1 _ _ => 0x8E00034
  | .rdGrer2 _ => 0x0E00038
  | .wrGrer2 _ _ => 0x8E00038
  | .rdGfer0 _ => 0x0E0003C
  | .wrGfer0 _ _ => 0x8E0003C
  | .rdGfer1 _ => 0x0E00040
  | .wrGfer1 _ _ => 0x8E00040
  | .rdGfer2 _ => 0x0E00044
  | .wrGfer2 _ _ => 0x8E00044
  | .rdGedr0 _ => 0x0E00048
  | .wrGedr0 _ _ => 0x8E00048
  | .rdGedr1 _ => 0x0E0004C
  | .wrGedr1 _ _ => 0x8E0004C
  | .rdGedr2 _ => 0x0E00050
  | .wrGedr2 _ _ => 0x8E00050
  | .rdAudio k _ => withIndex 0x0400000 2 k.val
  | .wrAudio k _ _ => withIndex 0x8400000 2 k.val
  | .rdAudioTop _ => 0x0400080
  | .wrAudioTop _ _ => 0x8400080
  | .rdUnmapped off _ => (0 : BitVec 1) ++ off ++ (0 : BitVec 2)
  | .wrUnmapped off _ _ => (1 : BitVec 1) ++ off ++ (0 : BitVec 2)

/-- The byte-lane enables of an instruction (R101). -/
def Instr.lanes : Instr → Lanes
  | .rdDcsr _ be => be
  | .wrDcsr _ be _ => be
  | .rdDint be => be
  | .wrDint be _ => be
  | .rdDdadr _ be => be
  | .wrDdadr _ be _ => be
  | .rdDsadr _ be => be
  | .wrDsadr _ be _ => be
  | .rdDtadr _ be => be
  | .wrDtadr _ be _ => be
  | .rdDcmd _ be => be
  | .wrDcmd _ be _ => be
  | .rdOsmr _ be => be
  | .wrOsmr _ be _ => be
  | .rdOscr be => be
  | .wrOscr be _ => be
  | .rdOssr be => be
  | .wrOssr be _ => be
  | .rdOier be => be
  | .wrOier be _ => be
  | .rdIcip be => be
  | .wrIcip be _ => be
  | .rdIcmr be => be
  | .wrIcmr be _ => be
  | .rdIclr be => be
  | .wrIclr be _ => be
  | .rdIcfp be => be
  | .wrIcfp be _ => be
  | .rdIcpr be => be
  | .wrIcpr be _ => be
  | .rdLccr0 be => be
  | .wrLccr0 be _ => be
  | .rdLccr2 be => be
  | .wrLccr2 be _ => be
  | .rdLccr3 be => be
  | .wrLccr3 be _ => be
  | .rdLcsr be => be
  | .wrLcsr be _ => be
  | .rdFdadr _ be => be
  | .wrFdadr _ be _ => be
  | .rdFsadr _ be => be
  | .wrFsadr _ be _ => be
  | .rdFidr _ be => be
  | .wrFidr _ be _ => be
  | .rdLdcmd _ be => be
  | .wrLdcmd _ be _ => be
  | .rdGplr0 be => be
  | .wrGplr0 be _ => be
  | .rdGplr1 be => be
  | .wrGplr1 be _ => be
  | .rdGplr2 be => be
  | .wrGplr2 be _ => be
  | .rdGpdr0 be => be
  | .wrGpdr0 be _ => be
  | .rdGpdr1 be => be
  | .wrGpdr1 be _ => be
  | .rdGpdr2 be => be
  | .wrGpdr2 be _ => be
  | .rdGpsr0 be => be
  | .wrGpsr0 be _ => be
  | .rdGpsr1 be => be
  | .wrGpsr1 be _ => be
  | .rdGpsr2 be => be
  | .wrGpsr2 be _ => be
  | .rdGpcr0 be => be
  | .wrGpcr0 be _ => be
  | .rdGpcr1 be => be
  | .wrGpcr1 be _ => be
  | .rdGpcr2 be => be
  | .wrGpcr2 be _ => be
  | .rdGrer0 be => be
  | .wrGrer0 be _ => be
  | .rdGrer1 be => be
  | .wrGrer1 be _ => be
  | .rdGrer2 be => be
  | .wrGrer2 be _ => be
  | .rdGfer0 be => be
  | .wrGfer0 be _ => be
  | .rdGfer1 be => be
  | .wrGfer1 be _ => be
  | .rdGfer2 be => be
  | .wrGfer2 be _ => be
  | .rdGedr0 be => be
  | .wrGedr0 be _ => be
  | .rdGedr1 be => be
  | .wrGedr1 be _ => be
  | .rdGedr2 be => be
  | .wrGedr2 be _ => be
  | .rdAudio _ be => be
  | .wrAudio _ be _ => be
  | .rdAudioTop be => be
  | .wrAudioTop be _ => be
  | .rdUnmapped _ be => be
  | .wrUnmapped _ be _ => be

/-- The write data of an instruction; a read has none and gets 0 (R101). -/
def Instr.writeData : Instr → Word
  | .rdDcsr _ _ => 0
  | .wrDcsr _ _ d => d
  | .rdDint _ => 0
  | .wrDint _ d => d
  | .rdDdadr _ _ => 0
  | .wrDdadr _ _ d => d
  | .rdDsadr _ _ => 0
  | .wrDsadr _ _ d => d
  | .rdDtadr _ _ => 0
  | .wrDtadr _ _ d => d
  | .rdDcmd _ _ => 0
  | .wrDcmd _ _ d => d
  | .rdOsmr _ _ => 0
  | .wrOsmr _ _ d => d
  | .rdOscr _ => 0
  | .wrOscr _ d => d
  | .rdOssr _ => 0
  | .wrOssr _ d => d
  | .rdOier _ => 0
  | .wrOier _ d => d
  | .rdIcip _ => 0
  | .wrIcip _ d => d
  | .rdIcmr _ => 0
  | .wrIcmr _ d => d
  | .rdIclr _ => 0
  | .wrIclr _ d => d
  | .rdIcfp _ => 0
  | .wrIcfp _ d => d
  | .rdIcpr _ => 0
  | .wrIcpr _ d => d
  | .rdLccr0 _ => 0
  | .wrLccr0 _ d => d
  | .rdLccr2 _ => 0
  | .wrLccr2 _ d => d
  | .rdLccr3 _ => 0
  | .wrLccr3 _ d => d
  | .rdLcsr _ => 0
  | .wrLcsr _ d => d
  | .rdFdadr _ _ => 0
  | .wrFdadr _ _ d => d
  | .rdFsadr _ _ => 0
  | .wrFsadr _ _ d => d
  | .rdFidr _ _ => 0
  | .wrFidr _ _ d => d
  | .rdLdcmd _ _ => 0
  | .wrLdcmd _ _ d => d
  | .rdGplr0 _ => 0
  | .wrGplr0 _ d => d
  | .rdGplr1 _ => 0
  | .wrGplr1 _ d => d
  | .rdGplr2 _ => 0
  | .wrGplr2 _ d => d
  | .rdGpdr0 _ => 0
  | .wrGpdr0 _ d => d
  | .rdGpdr1 _ => 0
  | .wrGpdr1 _ d => d
  | .rdGpdr2 _ => 0
  | .wrGpdr2 _ d => d
  | .rdGpsr0 _ => 0
  | .wrGpsr0 _ d => d
  | .rdGpsr1 _ => 0
  | .wrGpsr1 _ d => d
  | .rdGpsr2 _ => 0
  | .wrGpsr2 _ d => d
  | .rdGpcr0 _ => 0
  | .wrGpcr0 _ d => d
  | .rdGpcr1 _ => 0
  | .wrGpcr1 _ d => d
  | .rdGpcr2 _ => 0
  | .wrGpcr2 _ d => d
  | .rdGrer0 _ => 0
  | .wrGrer0 _ d => d
  | .rdGrer1 _ => 0
  | .wrGrer1 _ d => d
  | .rdGrer2 _ => 0
  | .wrGrer2 _ d => d
  | .rdGfer0 _ => 0
  | .wrGfer0 _ d => d
  | .rdGfer1 _ => 0
  | .wrGfer1 _ d => d
  | .rdGfer2 _ => 0
  | .wrGfer2 _ d => d
  | .rdGedr0 _ => 0
  | .wrGedr0 _ d => d
  | .rdGedr1 _ => 0
  | .wrGedr1 _ d => d
  | .rdGedr2 _ => 0
  | .wrGedr2 _ d => d
  | .rdAudio _ _ => 0
  | .wrAudio _ _ d => d
  | .rdAudioTop _ => 0
  | .wrAudioTop _ d => d
  | .rdUnmapped _ _ => 0
  | .wrUnmapped _ _ d => d

/-- The direction of an instruction, bit W of its command (R100). -/
def Instr.isWrite : Instr → Bool
  | .rdDcsr _ _ => false
  | .wrDcsr _ _ _ => true
  | .rdDint _ => false
  | .wrDint _ _ => true
  | .rdDdadr _ _ => false
  | .wrDdadr _ _ _ => true
  | .rdDsadr _ _ => false
  | .wrDsadr _ _ _ => true
  | .rdDtadr _ _ => false
  | .wrDtadr _ _ _ => true
  | .rdDcmd _ _ => false
  | .wrDcmd _ _ _ => true
  | .rdOsmr _ _ => false
  | .wrOsmr _ _ _ => true
  | .rdOscr _ => false
  | .wrOscr _ _ => true
  | .rdOssr _ => false
  | .wrOssr _ _ => true
  | .rdOier _ => false
  | .wrOier _ _ => true
  | .rdIcip _ => false
  | .wrIcip _ _ => true
  | .rdIcmr _ => false
  | .wrIcmr _ _ => true
  | .rdIclr _ => false
  | .wrIclr _ _ => true
  | .rdIcfp _ => false
  | .wrIcfp _ _ => true
  | .rdIcpr _ => false
  | .wrIcpr _ _ => true
  | .rdLccr0 _ => false
  | .wrLccr0 _ _ => true
  | .rdLccr2 _ => false
  | .wrLccr2 _ _ => true
  | .rdLccr3 _ => false
  | .wrLccr3 _ _ => true
  | .rdLcsr _ => false
  | .wrLcsr _ _ => true
  | .rdFdadr _ _ => false
  | .wrFdadr _ _ _ => true
  | .rdFsadr _ _ => false
  | .wrFsadr _ _ _ => true
  | .rdFidr _ _ => false
  | .wrFidr _ _ _ => true
  | .rdLdcmd _ _ => false
  | .wrLdcmd _ _ _ => true
  | .rdGplr0 _ => false
  | .wrGplr0 _ _ => true
  | .rdGplr1 _ => false
  | .wrGplr1 _ _ => true
  | .rdGplr2 _ => false
  | .wrGplr2 _ _ => true
  | .rdGpdr0 _ => false
  | .wrGpdr0 _ _ => true
  | .rdGpdr1 _ => false
  | .wrGpdr1 _ _ => true
  | .rdGpdr2 _ => false
  | .wrGpdr2 _ _ => true
  | .rdGpsr0 _ => false
  | .wrGpsr0 _ _ => true
  | .rdGpsr1 _ => false
  | .wrGpsr1 _ _ => true
  | .rdGpsr2 _ => false
  | .wrGpsr2 _ _ => true
  | .rdGpcr0 _ => false
  | .wrGpcr0 _ _ => true
  | .rdGpcr1 _ => false
  | .wrGpcr1 _ _ => true
  | .rdGpcr2 _ => false
  | .wrGpcr2 _ _ => true
  | .rdGrer0 _ => false
  | .wrGrer0 _ _ => true
  | .rdGrer1 _ => false
  | .wrGrer1 _ _ => true
  | .rdGrer2 _ => false
  | .wrGrer2 _ _ => true
  | .rdGfer0 _ => false
  | .wrGfer0 _ _ => true
  | .rdGfer1 _ => false
  | .wrGfer1 _ _ => true
  | .rdGfer2 _ => false
  | .wrGfer2 _ _ => true
  | .rdGedr0 _ => false
  | .wrGedr0 _ _ => true
  | .rdGedr1 _ => false
  | .wrGedr1 _ _ => true
  | .rdGedr2 _ => false
  | .wrGedr2 _ _ => true
  | .rdAudio _ _ => false
  | .wrAudio _ _ _ => true
  | .rdAudioTop _ => false
  | .wrAudioTop _ _ => true
  | .rdUnmapped _ _ => false
  | .wrUnmapped _ _ _ => true

/-- The access that encodes an instruction. -/
def encode (i : Instr) : Access := ⟨encodeCmd i, i.lanes, i.writeData⟩

end Sys2Proof
end

