-- ==== Sys2Proof/Machine/State.lean ====
section
/-! DEFINITION. The state of the block, all of it plain data (10_state.md R20 to R64), the stimuli its environment applies
to it (00_scope.md R12), the outcomes that end a step, and the state after reset (70_reset_and_hazards.md R360, R361).
The fields `rdata`, `inbox` and `draws` are the model's own. -/

namespace Sys2Proof.Machine

/-- The plain memory of the shared memory image as (byte address, byte) cells (20_memory.md R70). `Memory.wf` in Ops.lean
is its canonical form, and an unlisted address holds no value (`Memory.unlisted`). -/
abbrev Memory := List Host.Cell

/-- The addresses `first` to `last`, behind which the environment has something other than plain memory: a device, a
read-only memory, nothing at all (20_memory.md R71, R79). -/
structure PortRange where
  first : Word
  last : Word
deriving DecidableEq, Repr

/-- One access of the block to an address behind which there is no plain memory: a byte read and what the environment
answered, or a byte written (R71, R79). -/
inductive PortAccess where
  | read (addr : Word) (answer : Byte)
  | write (addr : Word) (value : Byte)
deriving DecidableEq, Repr

/-- The shared memory image as the accessors `MemRead` and `MemWrite` meet it (R71). All of it is the environment's, and
each field is free: what lies behind an address is the environment's business. Log entries 9 and 11. -/
structure Image where
  /-- The plain memory. -/
  cells : Memory
  /-- Where there is something other than plain memory. -/
  ports : List PortRange
  /-- What the environment will answer to the coming reads at `ports`, in order; after the last one an answer is a free
  value. -/
  answers : List Byte
  /-- The accesses that have reached `ports`, oldest first: how the environment learns of them. -/
  log : List PortAccess
deriving DecidableEq, Repr

/-- The Timer/Match Unit (R26 to R30). -/
structure Timer where
  /-- `OSMR[0..3]`, the match values (R26). -/
  osmr : Vector Word 4
  /-- `OSCR`, the free-running counter (R27). -/
  oscr : Word
  /-- `OSSR[3:0]`, the latched status flags (R28). -/
  ossr : BitVec 4
  /-- `OIER[3:0]`, the interrupt enables (R29). -/
  oier : BitVec 4
  /-- `ARMED[3:0]`, hidden: slot i has an unfired match event (R30). -/
  armed : BitVec 4
deriving DecidableEq, Repr

/-- One DMA channel (R31, R33 to R37). -/
structure DmaChannel where
  /-- `RUN`, DCSR bit 31: the channel has a scheduled completion event (R31). -/
  run : Bool
  /-- `EN`, DCSR bit 30: storage without effect (R31). -/
  en : Bool
  /-- `PAUSE`, DCSR bit 29: storage without effect (R31). -/
  pause : Bool
  /-- `REQ`, DCSR bits 13:8: storage, never interpreted (R31, R169). -/
  req : BitVec 6
  /-- `END`, DCSR bit 2: latched completion flag (R31). -/
  endFlag : Bool
  /-- `BUSERR`, DCSR bit 0: latched flag that no rule sets (R31, D25). -/
  busErr : Bool
  /-- `DDADR`, the address of the next descriptor (R33). -/
  ddadr : Word
  /-- `DSADR`, the source address (R34). -/
  dsadr : Word
  /-- `DTADR`, the target address (R35). -/
  dtadr : Word
  /-- `DCMD`, the command word, reserved bits 0 (R36). -/
  dcmd : Word
  /-- `DREM`, hidden: ticks until the completion event, meaningful while RUN (R37). -/
  drem : Nat
deriving DecidableEq, Repr

/-- The DMA Engine (R31 to R37). -/
structure Dma where
  /-- The sixteen channels. -/
  chan : Vector DmaChannel 16
  /-- `IRQP[15:0]`, the latched raw-pending bits, register DINT (R32). -/
  irqp : BitVec 16
deriving DecidableEq, Repr

/-- The Interrupt Controller (R38 to R42). ICIP and ICFP are computed views. -/
structure Intc where
  /-- `ICPR`, raw pending (R38). -/
  icpr : Word
  /-- `ICMR`, the mask (R39). -/
  icmr : Word
  /-- `ICLR`, the routing register (R40). -/
  iclr : Word
  /-- `irq_line`, the normal request line (R42). -/
  irqLine : Bool
  /-- `fiq_line`, the fast request line (R42). -/
  fiqLine : Bool
deriving DecidableEq, Repr

/-- `FB[n]`, a framebuffer: `pix` holds `lines * llen` pixel words, row-major (R53). -/
structure FrameBuffer where
  lines : Nat
  llen : Nat
  pix : List Word
deriving DecidableEq, Repr

/-- One LCD frame-DMA channel (R47 to R51, R53). -/
structure LcdChannel where
  /-- `FDADR`, the address of the next branch descriptor (R47). -/
  fdadr : Word
  /-- `FSADR`, the frame source address (R48). -/
  fsadr : Word
  /-- `FIDR`, the frame identifier (R49). -/
  fidr : Word
  /-- `LDCMD`, the line-command word, reserved bits 0 (R50). -/
  ldcmd : Word
  /-- `LREM`, hidden: ticks until the end-of-frame event, meaningful while LCDEN (R51). -/
  lrem : Nat
  /-- `FB[n]`, hidden: the framebuffer (R53). -/
  fb : FrameBuffer
deriving DecidableEq, Repr

/-- The Display (LCD) Controller (R43 to R53). -/
structure Lcd where
  /-- `LCDEN[1:0]`, register LCCR0 (R43). -/
  lcden : BitVec 2
  /-- `LPP`, LCCR2 bits 9:0: line count minus 1 (R44). -/
  lpp : BitVec 10
  /-- `PCD`, LCCR3 bits 7:0: pixel-clock setting (R45). -/
  pcd : BitVec 8
  /-- `EOF[1:0]`, LCSR bits 1:0: latched frame-end flags (R46). -/
  eof : BitVec 2
  /-- `BS[1:0]`, LCSR bits 5:4: latched branch-interrupt flags (R46). -/
  bs : BitVec 2
  /-- The two channels. -/
  chan : Vector LcdChannel 2
  /-- `PALETTE[0..255]`, hidden, shared by both channels (R52). -/
  palette : Vector Word 256
deriving DecidableEq, Repr

/-- One GPIO bank (R54 to R59). GPLR is a computed view; GPSR and GPCR have no storage. -/
structure GpioBank where
  /-- `GPDIR`, register GPDR: 1 = output (R54). -/
  gpdir : Word
  /-- `GPOUT`, hidden: the output latch (R55). -/
  gpout : Word
  /-- `GPIN`, hidden: the last levels the pin collaborator reported (R56). -/
  gpin : Word
  /-- `GRER`, rising-edge enables (R58). -/
  grer : Word
  /-- `GFER`, falling-edge enables (R58). -/
  gfer : Word
  /-- `GEDR`, the edge-detected latches (R59). -/
  gedr : Word
deriving DecidableEq, Repr

/-- One entry of the output trace (R62). -/
inductive OutEvent where
  /-- `GpioOut(b, dir, drive)` (45_gpio.md R314). -/
  | gpioOut (b : Bank) (dir drive : Word)
  /-- `FrameOut(n, fid, lines, llen, pix)` (44_lcd.md R268). -/
  | frameOut (n : LcdCh) (fid : Word) (lines llen : Nat) (pix : List Word)
deriving DecidableEq, Repr

/-- What the environment applies to the block: the four step kinds of R12, and its own right to change the memory image
between steps (20_memory.md R72), which the script notation writes as MEM and MEMW (30_encoding.md R120). -/
inductive Stimulus where
  /-- `Access(CMD, BE, DATA)`: one register read or write (40_dispatcher.md R130). -/
  | access (a : Access)
  /-- `Tick`: time advances by one counter tick (R138). -/
  | tick
  /-- `Pin(b, p, level)`, its arguments unchecked: the step has a precondition (R315). -/
  | pin (b p level : Nat)
  /-- `Reset` (R360). -/
  | reset
  /-- The environment writes bytes into the memory image from an address upward (R72, R120). No step of the block.
  Log entry 10. -/
  | mem (addr : Word) (bytes : List Byte)
  /-- The environment decides what lies behind the addresses of the memory image: where there is something other than
  plain memory, and what it will answer to the block's reads there (R71, R79). No step of the block. Log entry 11. -/
  | ports (ranges : List PortRange) (answers : List Byte)
deriving DecidableEq, Repr

/-- The whole state. -/
structure State where
  timer : Timer
  dma : Dma
  intc : Intc
  lcd : Lcd
  /-- The three GPIO banks. -/
  gpio : Vector GpioBank 3
  /-- The shared memory image, owned by the environment (R71), held here so that the machine can run. -/
  mem : Image
  /-- The append-only output trace, oldest entry first; reset does not erase it (R62). -/
  trace : List OutEvent
  /-- The model's own: what the last step returned, the word a read answers, nothing for any other step (R130).
  Log entry 3. -/
  rdata : Option Word
  /-- The model's own: the stimuli the environment has chosen and the block has not taken yet. Log entry 1. -/
  inbox : List Stimulus
  /-- The model's own: how many free values have been drawn. Log entry 4. -/
  draws : Nat
deriving DecidableEq, Repr

/-- Why the machine stops with a fault. There is no reason: the set of exception causes of the block is empty
(60_exceptions.md R330), so the type has no value and no step of the model faults. Safe. Log entry 28. -/
inductive Fault where
deriving DecidableEq, Repr

/-- Why the machine refuses a stimulus. -/
inductive Refusal where
  /-- Raised by an arm of `exec` whose instruction has no meaning yet. No arm raises it in this model. Safe. -/
  | notModelled (mnemonic : String)
  /-- Raised by `step` on a `Pin(b, p, level)` outside the step's precondition: b above 2, p above 31 or level neither 0
  nor 1 (45_gpio.md R315; 93_implementation_defined.md U16 says to refuse it). Safe: the spec has no such step. -/
  | pinOutsidePrecondition (b p level : Nat)
deriving DecidableEq, Repr

/-- What a step or an instruction answers. -/
abbrev Result := Host.Outcome State Fault Refusal

/-- The Timer/Match Unit after reset (R64): all 0, no slot armed. -/
def Timer.reset : Timer := ⟨Vector.replicate 4 0, 0, 0, 0, 0⟩

/-- A DMA channel after reset (R64): idle, all 0. DREM is then irrelevant; 0 is a DESIGN CHOICE, log entry 13. -/
def DmaChannel.reset : DmaChannel := ⟨false, false, false, 0, false, false, 0, 0, 0, 0, 0⟩

/-- The DMA Engine after reset (R64). -/
def Dma.reset : Dma := ⟨Vector.replicate 16 DmaChannel.reset, 0⟩

/-- The Interrupt Controller after reset (R64): nothing pending, everything masked, lines deasserted. -/
def Intc.reset : Intc := ⟨0, 0, 0, false, false⟩

/-- A framebuffer after reset (R53, R64): empty. -/
def FrameBuffer.empty : FrameBuffer := ⟨0, 0, []⟩

/-- An LCD channel after reset (R64). LREM is then irrelevant; 0 is a DESIGN CHOICE, log entry 13. -/
def LcdChannel.reset : LcdChannel := ⟨0, 0, 0, 0, 0, FrameBuffer.empty⟩

/-- The palette after the reset with this draw number: any content (R52, R64). Log entry 5. -/
def paletteDraw (draw : Nat) : Vector Word 256 := Vector.ofFn (Config.paletteInit draw)

/-- The LCD Controller after the reset with this draw number (R64). -/
def Lcd.reset (draw : Nat) : Lcd := ⟨0, 0, 0, 0, 0, Vector.replicate 2 LcdChannel.reset, paletteDraw draw⟩

/-- A GPIO bank after reset (R64). -/
def GpioBank.reset : GpioBank := ⟨0, 0, 0, 0, 0, 0⟩

/-- The memory image before the environment has done anything: plain memory throughout, any content (log entries 9 and
11). -/
def Image.initial : Image := ⟨[], [], [], []⟩

/-- The machine right after its first reset (R360, R361, R64): every register 0, no event scheduled, both lines 0, the
palette drawn; a memory image that nothing has written, an empty trace, no stimulus waiting. -/
def State.reset : State :=
  ⟨Timer.reset, Dma.reset, Intc.reset, Lcd.reset 0, Vector.replicate 3 GpioBank.reset, Image.initial, [], none, [], 1⟩

end Sys2Proof.Machine
end

