-- ==== Sys2Proof/Machine/Operands.lean ====
section
/-! DEFINITION. Every operand form of an access: the lane mask, the lane-masked writes `merge` and `w1c`
(00_scope.md R11, 30_encoding.md R102), the writable-bit sets and fields of the register words, the packing of the
registers that the state holds field by field, and the computed views (10_state.md R31 to R57). -/

namespace Sys2Proof.Machine

/-- The lane mask M: byte k all ones when BE[k] = 1 (R102). -/
def laneMask (be : Lanes) : Word :=
  (if be.getLsbD 0 then 0x000000FF else 0) ||| (if be.getLsbD 1 then 0x0000FF00 else 0) |||
    (if be.getLsbD 2 then 0x00FF0000 else 0) ||| (if be.getLsbD 3 then 0xFF000000 else 0)

/-- `merge(old, D, M, W)`: a lane-masked write of the writable bits W (R11). -/
def merge (old d m w : Word) : Word := (old &&& ~~~(m &&& w)) ||| (d &&& m &&& w)

/-- `w1c(old, D, M, W)`: a lane-masked write-one-to-clear of the bits W (R11, R24). -/
def w1c (old d m w : Word) : Word := old &&& ~~~(d &&& m &&& w)

/-- Every bit writable. -/
def wAll : Word := 0xFFFFFFFF

/-- `W_DCSR`: RUN, EN, PAUSE, REQ (41_dma.md, constants). -/
def wDcsr : Word := 0xE0003F00

/-- `W_DCMD` (R36). -/
def wDcmd : Word := 0xF0A31FFF

/-- `W_LDCMD` (R50). -/
def wLdcmd : Word := 0x04A31FFF

/-- `F_LCSR`: EOF[1:0], BS[1:0] (44_lcd.md, constants). -/
def fLcsr : Word := 0x00000033

/-- The writable bits of OSSR and OIER (R28, R29). -/
def wSlots : Word := 0x0000000F

/-- The writable bits of LCCR2 (R44). -/
def wLpp : Word := 0x000003FF

/-- The writable bits of LCCR3 (R45). -/
def wPcd : Word := 0x000000FF

/-- The flag bits of DINT (R32). -/
def fDint : Word := 0x0000FFFF

/-- A lane-masked write of a whole 32-bit register. -/
def mergeAll (old : Word) (be : Lanes) (d : Word) : Word := merge old d (laneMask be) wAll

/-- `D & M`, the written data of the enabled lanes. -/
def lanedData (be : Lanes) (d : Word) : Word := d &&& laneMask be

/-- Bit k of a vector set to 1. -/
def setBit {w : Nat} (v : BitVec w) (k : Nat) : BitVec w := v ||| BitVec.twoPow w k

/-- Bit k of a vector set to 0. -/
def clearBit {w : Nat} (v : BitVec w) (k : Nat) : BitVec w := v &&& ~~~(BitVec.twoPow w k)

/-- Bit k of a vector set to b. -/
def putBit {w : Nat} (v : BitVec w) (k : Nat) (b : Bool) : BitVec w := if b then setBit v k else clearBit v k

/-- `b << k` as a register word. -/
def bitAt (k : Nat) (b : Bool) : Word := if b then BitVec.twoPow 32 k else 0

/-! Fields of the DMA command word (R36, R113). FLOWSRC and FLOWTRG are never interpreted (R169). -/

def dcmdLen (w : Word) : BitVec 13 := w.extractLsb' 0 13
def dcmdSize (w : Word) : BitVec 2 := w.extractLsb' 16 2
def dcmdEndIrqEn (w : Word) : Bool := w.getLsbD 21
def dcmdStop (w : Word) : Bool := w.getLsbD 23
def dcmdFlowTrg (w : Word) : Bool := w.getLsbD 28
def dcmdFlowSrc (w : Word) : Bool := w.getLsbD 29
def dcmdIncTrg (w : Word) : Bool := w.getLsbD 30
def dcmdIncSrc (w : Word) : Bool := w.getLsbD 31

/-! Fields of the LCD line-command word (R50, R116). -/

def ldcmdLlen (w : Word) : BitVec 13 := w.extractLsb' 0 13
def ldcmdPf (w : Word) : BitVec 2 := w.extractLsb' 16 2
def ldcmdBint (w : Word) : Bool := w.getLsbD 21
def ldcmdStop (w : Word) : Bool := w.getLsbD 23
def ldcmdPal (w : Word) : Bool := w.getLsbD 26

/-! Register words of the registers held field by field: reserved bits read 0 (R25). -/

/-- The value `RD.DCSR` returns (R150). -/
def dcsrWord (c : DmaChannel) : Word :=
  bitAt 31 c.run ||| bitAt 30 c.en ||| bitAt 29 c.pause ||| (c.req.setWidth 32 <<< 8) ||| bitAt 2 c.endFlag |||
    bitAt 0 c.busErr

/-- The value `RD.DINT` returns (R152). -/
def dintWord (d : Dma) : Word := d.irqp.setWidth 32

/-- The value `RD.OSSR` returns (R204). -/
def ossrWord (t : Timer) : Word := t.ossr.setWidth 32

/-- The value `RD.OIER` returns (R206). -/
def oierWord (t : Timer) : Word := t.oier.setWidth 32

/-- The value `RD.LCCR0` returns (R250). -/
def lccr0Word (l : Lcd) : Word := l.lcden.setWidth 32

/-- The value `RD.LCCR2` returns (R252). -/
def lccr2Word (l : Lcd) : Word := l.lpp.setWidth 32

/-- The value `RD.LCCR3` returns (R254). -/
def lccr3Word (l : Lcd) : Word := l.pcd.setWidth 32

/-- The value `RD.LCSR` returns (R256). -/
def lcsrWord (l : Lcd) : Word := (l.bs.setWidth 32 <<< 4) ||| l.eof.setWidth 32

/-- `ICIP`, pending on the normal line (R41, R230). -/
def icipView (i : Intc) : Word := i.icpr &&& i.icmr &&& ~~~i.iclr

/-- `ICFP`, pending on the fast line (R41, R239). -/
def icfpView (i : Intc) : Word := i.icpr &&& i.icmr &&& i.iclr

/-- `GPLR`: the output latch on output pins, the reported level on input pins (R57, R300). -/
def gplrView (g : GpioBank) : Word := (g.gpdir &&& g.gpout) ||| (~~~g.gpdir &&& g.gpin)

/-- The levels the block drives, `GPDIR & GPOUT` (R314). -/
def drivenLevels (g : GpioBank) : Word := g.gpdir &&& g.gpout

end Sys2Proof.Machine
end

