-- ==== Sys2Proof/Machine/Flags.lean ====
section
/-! DEFINITION. The latched flags and what each drives: the level function of every interrupt source
(10_state.md R24, R60; 43_intc.md R243; 60_exceptions.md R334). The block has no arithmetic condition codes (R60). -/

namespace Sys2Proof.Machine

/-- Timer source i, the level `OSSR[i] & OIER[i]` (42_timer.md R215). -/
def timerSource (t : Timer) (i : Slot) : Bool := t.ossr.getLsbD i && t.oier.getLsbD i

/-- The aggregate DMA source, `DINT != 0` (41_dma.md R170). -/
def dmaSource (d : Dma) : Bool := d.irqp != 0

/-- The LCD source, `BS[0] | BS[1]` (44_lcd.md R269). -/
def lcdSource (l : Lcd) : Bool := l.bs.getLsbD 0 || l.bs.getLsbD 1

/-- The source of GPIO pin 0 or 1 of bank 0 (45_gpio.md R317). -/
def gpioPinSource (g : Vector GpioBank 3) (p : Nat) : Bool := (g[0]).gedr.getLsbD p

/-- The source of GPIO pins 2 to 95 (R317, R243). -/
def gpioRestSource (g : Vector GpioBank 3) : Bool :=
  (g[0]).gedr &&& 0xFFFFFFFC != 0 || (g[1]).gedr != 0 || (g[2]).gedr != 0

/-- `SOURCES(state)`: the word of all source levels; every bit without a source is 0 (R243). -/
def sources (s : State) : Word :=
  bitAt 8 (gpioPinSource s.gpio 0) ||| bitAt 9 (gpioPinSource s.gpio 1) ||| bitAt 10 (gpioRestSource s.gpio) |||
    bitAt 17 (lcdSource s.lcd) ||| bitAt 25 (dmaSource s.dma) ||| bitAt 26 (timerSource s.timer 0) |||
    bitAt 27 (timerSource s.timer 1) ||| bitAt 28 (timerSource s.timer 2) ||| bitAt 29 (timerSource s.timer 3)

/-- One latched flag held as a Bool at bit k of its register: cleared when bit k of D & M is 1 (R24). -/
def clearFlag (flag : Bool) (k : Nat) (be : Lanes) (d : Word) : Bool := flag && !(lanedData be d).getLsbD k

end Sys2Proof.Machine
end

