-- ==== Sys2Proof/Machine/Ops.lean ====
section
/-! DEFINITION. The named operations over memory and registers that the meanings share: the memory image's accessors
(20_memory.md R71, R73, R79, R88), access to the replicated registers, the output trace, `IntcUpdate` (43_intc.md R234, R235)
and the two shapes every access has (40_dispatcher.md R130). The block takes no exception and returns from none
(60_exceptions.md R330, R338, R341): what stands in the place of exception entry is `intcUpdate`, which drives the two
lines toward the CPU collaborator and changes nothing else. -/

namespace Sys2Proof.Machine

/-! ## The plain memory -/

/-- What an address that the memory does not list holds: no value, since nothing has written it. Log entry 9. -/
def Memory.unlisted : Option Byte := none

/-- What the memory holds at a key. -/
def Memory.lookup : Memory → Nat → Option Byte
  | [], _ => Memory.unlisted
  | (k, b) :: rest, a => if k = a then some b else Memory.lookup rest a

/-- Write the cell of a key, in its place by rising keys. -/
def Memory.put (a : Nat) (v : Byte) : Memory → Memory
  | [] => [(a, v)]
  | (k, b) :: rest =>
    if a < k then (a, v) :: (k, b) :: rest else if a = k then (a, v) :: rest else (k, b) :: Memory.put a v rest

/-- The canonical form: keys strictly rising and below 2^32. No cell can equal what an unlisted address holds, which is no
value. -/
def Memory.wf : Memory → Bool
  | [] => true
  | (k, _) :: rest => decide (k < 2 ^ 32) && rest.all (fun c => decide (k < c.1)) && Memory.wf rest

/-- Bytes written from an address upward, modulo 2^32. -/
def Memory.putBytes (a : Word) : List Byte → Memory → Memory
  | [], m => m
  | b :: rest, m => Memory.putBytes (a + 1) rest (Memory.put a.toNat b m)

/-! ## The accessors of the memory image -/

/-- Behind the address there is something other than plain memory (20_memory.md R71, R79). -/
def Image.isPort (m : Image) (a : Word) : Bool := m.ports.any fun r => decide (r.first ≤ a) && decide (a ≤ r.last)

/-- The byte of plain memory at an address, the environment's initial content where nothing has written it. -/
def plainByte (m : Image) (a : Word) : Byte := (Memory.lookup m.cells a.toNat).getD (Config.initialByte a)

/-- What the environment answers to the next read at a port: the next byte of its script, else a free value. -/
def portAnswer (m : Image) (a : Word) : Byte :=
  match m.answers with
  | v :: _ => v
  | [] => Config.portByte m.log.length a

/-- The value of `MemRead(addr, 1)` (R71). -/
def readByte (m : Image) (a : Word) : Byte := if m.isPort a then portAnswer m a else plainByte m a

/-- The image after `MemRead(addr, 1)`: plain memory is not changed by a read, a port may be (R79). -/
def afterRead (m : Image) (a : Word) : Image :=
  if m.isPort a then { m with answers := m.answers.tail, log := m.log ++ [.read a (portAnswer m a)] } else m

/-- `MemWrite(addr, 1, v)` (R71): plain memory takes the byte, a port is handed it. -/
def writeByte (m : Image) (a : Word) (v : Byte) : Image :=
  if m.isPort a then { m with log := m.log ++ [.write a v] } else { m with cells := Memory.put a.toNat v m.cells }

/-- The values of n byte reads at ascending addresses modulo 2^32 (R73, R83, R88). Every read of the block but those of a
DMA copy is such a run: a descriptor, the lines of a frame, a palette. -/
def runBytes : Nat → Word → Image → List Byte
  | 0, _, _ => []
  | n + 1, a, m => readByte m a :: runBytes n (a + 1) (afterRead m a)

/-- The image after n byte reads at ascending addresses. -/
def runImage : Nat → Word → Image → Image
  | 0, _, m => m
  | n + 1, a, m => runImage n (a + 1) (afterRead m a)

/-- The 32-bit word at place k of bytes read in ascending order, little-endian (R73). -/
def wordAt (bs : List Byte) (k : Nat) : Word :=
  (bs.getD (k + 3) 0 ++ bs.getD (k + 2) 0) ++ (bs.getD (k + 1) 0 ++ bs.getD k 0)

/-- The 16-bit values of bytes read in ascending order, little-endian (R73). -/
def halves : List Byte → List (BitVec 16)
  | b0 :: b1 :: rest => (b1 ++ b0) :: halves rest
  | _ => []

/-- The sixteen bytes of the descriptor at address a (30_encoding.md R112, R115). -/
def descriptorBytes (m : Image) (a : Word) : List Byte := runBytes 16 a m

/-- Word k of the four-word descriptor at address a (R112, R115). -/
def descriptorWord (m : Image) (a : Word) (k : Nat) : Word := wordAt (descriptorBytes m a) (4 * k)

/-- The image after the load of the descriptor at address a. -/
def afterDescriptor (m : Image) (a : Word) : Image := runImage 16 a m

/-! ## Registers -/

/-- The DMA channel `ch`. -/
def State.chan (s : State) (ch : Channel) : DmaChannel := s.dma.chan[ch]

/-- The LCD channel `n`. -/
def State.lcdChan (s : State) (n : LcdCh) : LcdChannel := s.lcd.chan[n]

/-- The GPIO bank `b`. -/
def State.bank (s : State) (b : Bank) : GpioBank := s.gpio[b]

/-- Replace the timer unit. -/
def State.setTimer (s : State) (t : Timer) : State := { s with timer := t }

/-- Replace one DMA channel. -/
def State.setChan (s : State) (ch : Channel) (c : DmaChannel) : State :=
  { s with dma := { s.dma with chan := s.dma.chan.set ch c } }

/-- Replace the DMA raw-pending bits. -/
def State.setIrqp (s : State) (v : BitVec 16) : State := { s with dma := { s.dma with irqp := v } }

/-- Replace the interrupt controller. -/
def State.setIntc (s : State) (i : Intc) : State := { s with intc := i }

/-- Replace the LCD controller. -/
def State.setLcd (s : State) (l : Lcd) : State := { s with lcd := l }

/-- Replace one LCD channel. -/
def State.setLcdChan (s : State) (n : LcdCh) (c : LcdChannel) : State :=
  { s with lcd := { s.lcd with chan := s.lcd.chan.set n c } }

/-- Replace one GPIO bank. -/
def State.setBank (s : State) (b : Bank) (g : GpioBank) : State := { s with gpio := s.gpio.set b g }

/-- Replace the memory image. -/
def State.setMem (s : State) (m : Image) : State := { s with mem := m }

/-- `emit E(args)`: append an entry to the output trace (R11, R62). -/
def State.emit (s : State) (e : OutEvent) : State := { s with trace := s.trace ++ [e] }

/-- Set what the step returns. -/
def State.answer (s : State) (r : Option Word) : State := { s with rdata := r }

/-- Draw a free value: the draw number advances. -/
def State.draw (s : State) : State := { s with draws := s.draws + 1 }

/-! ## The interrupt lines -/

/-- `Recompute`: drive both lines from ICPR, ICMR and ICLR (R235). -/
def recompute (i : Intc) : Intc := { i with irqLine := icipView i != 0, fiqLine := icfpView i != 0 }

/-- `IntcUpdate()`: `SetSources` (R234), then `Recompute` (R235). -/
def intcUpdate (s : State) : State := s.setIntc (recompute { s.intc with icpr := sources s })

/-! ## The two shapes of an access -/

/-- A read: it returns the whole word v whatever BE holds and changes nothing (R23, R133, R136). -/
def readAccess (v : Word) (s : State) : Result := .next (s.answer (some v))

/-- The state after a write: with no lane enabled nothing moved (R133); otherwise the effect happened and `IntcUpdate()`
followed (R130). It returned nothing. -/
def afterWrite (be : Lanes) (effect : State → State) (s : State) : State :=
  if be = 0 then s.answer none else intcUpdate (effect (s.answer none))

/-- A write: it always completes (R130, R330). -/
def writeAccess (be : Lanes) (effect : State → State) (s : State) : Result := .next (afterWrite be effect s)

end Sys2Proof.Machine
end

