-- ==== Sys2Proof/Machine/Bus.lean ====
section
/-! DEFINITION. The accesses no sub-block owns (40_dispatcher.md R131 to R135): unmapped offsets, and the audio range,
whose registers belong to an external collaborator. An audio read returns a free value. -/

namespace Sys2Proof.Machine

/-- The byte offset of audio word k, `OFF & ~3` (R111, R134). -/
def audioOffsetOf (k : Nat) : BitVec 27 := 0x0400000#27 + BitVec.ofNat 27 (4 * k)

/-- A read of the audio word at a byte offset: any value, drawn anew for every read (R134). No state of the block is read
or changed; only the model's own draw number advances. -/
def readAudio (off : BitVec 27) (s : State) : Result := readAccess (Config.audioRead s.draws off) s.draw

/-- `RD.AUDIO`, words 0 to 31 (R134). -/
def execRdAudio (word : Fin 32) (_be : Lanes) (s : State) : Result := readAudio (audioOffsetOf word) s

/-- `WR.AUDIO`, words 0 to 31: no state of the block changes (R135). -/
def execWrAudio (_word : Fin 32) (be : Lanes) (_data : Word) (s : State) : Result := writeAccess be (fun s => s) s

/-- `RD.AUDIO`, word 32 (R134). -/
def execRdAudioTop (_be : Lanes) (s : State) : Result := readAudio (audioOffsetOf 32) s

/-- `WR.AUDIO`, word 32: no state of the block changes (R135). -/
def execWrAudioTop (be : Lanes) (_data : Word) (s : State) : Result := writeAccess be (fun s => s) s

/-- `RD.UNMAPPED`: reads 0 (R131). -/
def execRdUnmapped (_off : BitVec 25) (_be : Lanes) (s : State) : Result := readAccess 0 s

/-- `WR.UNMAPPED`: ignored (R132). -/
def execWrUnmapped (_off : BitVec 25) (be : Lanes) (_data : Word) (s : State) : Result := writeAccess be (fun s => s) s

end Sys2Proof.Machine
end

