-- ==== Sys2Proof/Machine/Dma.lean ====
section
/-! DEFINITION. The DMA Engine (41_dma.md): the twelve register operations and the engine's events kick, load, copy,
completion and abort. -/

namespace Sys2Proof.Machine

/-! ## Engine events -/

/-- A channel's working registers after the load of the descriptor at its chain-link address (R164). -/
def loadedChannel (m : Image) (c : DmaChannel) : DmaChannel :=
  let cmd := descriptorWord m c.ddadr 3 &&& wDcmd
  { c with
    ddadr := descriptorWord m c.ddadr 0
    dsadr := descriptorWord m c.ddadr 1
    dtadr := descriptorWord m c.ddadr 2
    dcmd := cmd
    drem := Config.dmaDuration (dcmdLen cmd) (dcmdSize cmd) }

/-- `DmaLoad(ch)` (R164). -/
def dmaLoad (ch : Channel) (s : State) : State :=
  (s.setChan ch (loadedChannel s.mem (s.chan ch))).setMem (afterDescriptor s.mem (s.chan ch).ddadr)

/-- `DmaKick(ch)`, on RUN 0 to 1 (R163). -/
def dmaKick (ch : Channel) (s : State) : State := dmaLoad ch s

/-- `DmaAbort(ch)`, on RUN 1 to 0: with RUN clear the channel is in no tick's due set, and everything else keeps its
value (R167). -/
def dmaAbort (_ch : Channel) (s : State) : State := s

/-- The address of the next byte: advanced by 1 modulo 2^32 in the incrementing mode, kept in the fixed mode (R166). -/
def nextAddr (inc : Bool) (a : Word) : Word := if inc then a + 1 else a

/-- `MemWrite(t, 1, MemRead(s, 1))` (R166). -/
def moveByte (m : Image) (src trg : Word) : Image := writeByte (afterRead m src) trg (readByte m src)

/-- The forward byte loop of a copy: n bytes, each read and then written (R166). -/
def copyBytes (incSrc incTrg : Bool) : Nat → Word → Word → Image → Image
  | 0, _, _, m => m
  | n + 1, src, trg, m => copyBytes incSrc incTrg n (nextAddr incSrc src) (nextAddr incTrg trg) (moveByte m src trg)

/-- The memory image after the copy that a channel's working registers describe (R166). -/
def copiedImage (c : DmaChannel) (m : Image) : Image :=
  copyBytes (dcmdIncSrc c.dcmd) (dcmdIncTrg c.dcmd) (dcmdLen c.dcmd).toNat c.dsadr c.dtadr m

/-- `DmaCopy(ch)`: the working registers are not modified (R166). -/
def dmaCopy (ch : Channel) (s : State) : State := s.setMem (copiedImage (s.chan ch) s.mem)

/-- `DmaFire(ch)`, the completion event, with the stale-event guard of R168 (R165). ENDIRQEN and STOP are those of the
transfer that completes. -/
def dmaFire (ch : Channel) (s : State) : State :=
  if (s.chan ch).run then
    let cmd := (s.chan ch).dcmd
    let s := dmaCopy ch s
    let s := s.setChan ch { s.chan ch with endFlag := true }
    let s := if dcmdEndIrqEn cmd then s.setIrqp (setBit s.dma.irqp ch) else s
    if dcmdStop cmd then s.setChan ch { s.chan ch with run := false } else dmaLoad ch s
  else s

/-! ## Register operations -/

/-- A channel after the storage part of `WR.DCSR`: RUN, EN, PAUSE, REQ take the written lanes, END and BUSERR are cleared
where a 1 is written (R151). -/
def dcsrMerged (c : DmaChannel) (be : Lanes) (d : Word) : DmaChannel :=
  let v := merge (dcsrWord c) d (laneMask be) wDcsr
  { c with
    run := v.getLsbD 31
    en := v.getLsbD 30
    pause := v.getLsbD 29
    req := v.extractLsb' 8 6
    endFlag := clearFlag c.endFlag 2 be d
    busErr := clearFlag c.busErr 0 be d }

/-- The effect of `WR.DCSR`: storage and clears first, then the transitions of RUN (R151, R137). -/
def dcsrWrite (ch : Channel) (be : Lanes) (d : Word) (s : State) : State :=
  let oldRun := (s.chan ch).run
  let s := s.setChan ch (dcsrMerged (s.chan ch) be d)
  let newRun := (s.chan ch).run
  if !oldRun && newRun then dmaKick ch s
  else if oldRun && !newRun then dmaAbort ch s
  else s

/-- `RD.DCSR` (R150). -/
def execRdDcsr (ch : Channel) (_be : Lanes) (s : State) : Result := readAccess (dcsrWord (s.chan ch)) s

/-- `WR.DCSR` (R151). -/
def execWrDcsr (ch : Channel) (be : Lanes) (data : Word) (s : State) : Result :=
  writeAccess be (dcsrWrite ch be data) s

/-- `RD.DINT` (R152). -/
def execRdDint (_be : Lanes) (s : State) : Result := readAccess (dintWord s.dma) s

/-- `WR.DINT`: the pending bits of the written ones are cleared (R153). -/
def execWrDint (be : Lanes) (data : Word) (s : State) : Result :=
  writeAccess be (fun s => s.setIrqp ((w1c (dintWord s.dma) data (laneMask be) fDint).setWidth 16)) s

/-- `RD.DDADR` (R154). -/
def execRdDdadr (ch : Channel) (_be : Lanes) (s : State) : Result := readAccess (s.chan ch).ddadr s

/-- `WR.DDADR`: storage only (R155). -/
def execWrDdadr (ch : Channel) (be : Lanes) (data : Word) (s : State) : Result :=
  writeAccess be (fun s => s.setChan ch { s.chan ch with ddadr := mergeAll (s.chan ch).ddadr be data }) s

/-- `RD.DSADR` (R156). -/
def execRdDsadr (ch : Channel) (_be : Lanes) (s : State) : Result := readAccess (s.chan ch).dsadr s

/-- `WR.DSADR`: storage only (R157). -/
def execWrDsadr (ch : Channel) (be : Lanes) (data : Word) (s : State) : Result :=
  writeAccess be (fun s => s.setChan ch { s.chan ch with dsadr := mergeAll (s.chan ch).dsadr be data }) s

/-- `RD.DTADR` (R158). -/
def execRdDtadr (ch : Channel) (_be : Lanes) (s : State) : Result := readAccess (s.chan ch).dtadr s

/-- `WR.DTADR`: storage only (R159). -/
def execWrDtadr (ch : Channel) (be : Lanes) (data : Word) (s : State) : Result :=
  writeAccess be (fun s => s.setChan ch { s.chan ch with dtadr := mergeAll (s.chan ch).dtadr be data }) s

/-- `RD.DCMD` (R160). -/
def execRdDcmd (ch : Channel) (_be : Lanes) (s : State) : Result := readAccess (s.chan ch).dcmd s

/-- `WR.DCMD`: storage only, reserved bits dropped (R161). -/
def execWrDcmd (ch : Channel) (be : Lanes) (data : Word) (s : State) : Result :=
  writeAccess be
    (fun s => s.setChan ch { s.chan ch with dcmd := merge (s.chan ch).dcmd data (laneMask be) wDcmd }) s

end Sys2Proof.Machine
end

