-- ==== Sys2Proof/Machine/Gpio.lean ====
section
/-! DEFINITION. The GPIO Block (45_gpio.md): the fourteen register operations, each once for any bank and then once per
bank as the opcode table has it, the outgoing notification, the edge detector and the `Pin` step. -/

namespace Sys2Proof.Machine

/-! ## Pin bridge and edge detection -/

/-- `GpioOut(b, dir, drive)` as bank b stands (R314). -/
def gpioOutOf (b : Bank) (g : GpioBank) : OutEvent := .gpioOut b g.gpdir (drivenLevels g)

/-- `EdgeDetect(b, p, level)` on a bank: the latch of pin p is set on an armed edge (R316). -/
def edgeDetect (g : GpioBank) (p : Nat) (level : Bool) : GpioBank :=
  if (level && g.grer.getLsbD p) || (!level && g.gfer.getLsbD p) then { g with gedr := setBit g.gedr p } else g

/-- A bank after the notification of a level on pin p: GPIN takes it, and a change on an input pin is an edge (R315). -/
def pinnedBank (g : GpioBank) (p : Nat) (level : Bool) : GpioBank :=
  let old := g.gpin.getLsbD p
  let g := { g with gpin := putBit g.gpin p level }
  if !g.gpdir.getLsbD p && old != level then edgeDetect g p level else g

/-- `Pin(b, p, level)` within its precondition (R315). It returns nothing. -/
def pinStep (b : Bank) (p : Nat) (level : Bool) (s : State) : State :=
  intcUpdate ((s.setBank b (pinnedBank (s.bank b) p level)).answer none)

/-- `Pin(b, p, level)` with raw arguments: refused by name outside the precondition (R315; U16). -/
def pinOrRefuse (b p level : Nat) (s : State) : Result :=
  if h : b < 3 then
    if p < 32 && level < 2 then .next (pinStep ⟨b, h⟩ p (level == 1) s)
    else .refused (.pinOutsidePrecondition b p level)
  else .refused (.pinOutsidePrecondition b p level)

/-! ## Register operations of bank b -/

/-- Replace bank b and notify the collaborator when its direction or its driven levels changed (R314). -/
def updateDriven (b : Bank) (g : GpioBank) (s : State) : State :=
  let before := s.bank b
  let s := s.setBank b g
  if g.gpdir = before.gpdir ∧ drivenLevels g = drivenLevels before then s else s.emit (gpioOutOf b g)

/-- Replace the output latch of bank b and notify the collaborator when the latch changed (R305, R307). -/
def updateLatch (b : Bank) (out : Word) (s : State) : State :=
  let old := (s.bank b).gpout
  let g := { s.bank b with gpout := out }
  let s := s.setBank b g
  if out = old then s else s.emit (gpioOutOf b g)

/-- `RD.GPLR` of bank b (R300). -/
def readGplr (b : Bank) (s : State) : Result := readAccess (gplrView (s.bank b)) s

/-- `WR.GPLR`: nothing (R301). -/
def writeGplr (be : Lanes) (s : State) : Result := writeAccess be (fun s => s) s

/-- `RD.GPDR` of bank b (R302). -/
def readGpdr (b : Bank) (s : State) : Result := readAccess (s.bank b).gpdir s

/-- `WR.GPDR` of bank b (R303). -/
def writeGpdr (b : Bank) (be : Lanes) (data : Word) (s : State) : Result :=
  writeAccess be (fun s => updateDriven b { s.bank b with gpdir := mergeAll (s.bank b).gpdir be data } s) s

/-- `RD.GPSR`: the set register has no storage (R304). -/
def readGpsr (s : State) : Result := readAccess 0 s

/-- `WR.GPSR` of bank b: written ones set output pins; input pins are not affected (R305). -/
def writeGpsr (b : Bank) (be : Lanes) (data : Word) (s : State) : Result :=
  writeAccess be (fun s => updateLatch b ((s.bank b).gpout ||| (lanedData be data &&& (s.bank b).gpdir)) s) s

/-- `RD.GPCR`: the clear register has no storage (R306). -/
def readGpcr (s : State) : Result := readAccess 0 s

/-- `WR.GPCR` of bank b: written ones clear output pins; input pins are not affected (R307). -/
def writeGpcr (b : Bank) (be : Lanes) (data : Word) (s : State) : Result :=
  writeAccess be (fun s => updateLatch b ((s.bank b).gpout &&& ~~~(lanedData be data &&& (s.bank b).gpdir)) s) s

/-- `RD.GRER` of bank b (R308). -/
def readGrer (b : Bank) (s : State) : Result := readAccess (s.bank b).grer s

/-- `WR.GRER` of bank b (R309). -/
def writeGrer (b : Bank) (be : Lanes) (data : Word) (s : State) : Result :=
  writeAccess be (fun s => s.setBank b { s.bank b with grer := mergeAll (s.bank b).grer be data }) s

/-- `RD.GFER` of bank b (R310). -/
def readGfer (b : Bank) (s : State) : Result := readAccess (s.bank b).gfer s

/-- `WR.GFER` of bank b (R311). -/
def writeGfer (b : Bank) (be : Lanes) (data : Word) (s : State) : Result :=
  writeAccess be (fun s => s.setBank b { s.bank b with gfer := mergeAll (s.bank b).gfer be data }) s

/-- `RD.GEDR` of bank b (R312). -/
def readGedr (b : Bank) (s : State) : Result := readAccess (s.bank b).gedr s

/-- `WR.GEDR` of bank b: write-one-to-clear (R313). -/
def writeGedr (b : Bank) (be : Lanes) (data : Word) (s : State) : Result :=
  writeAccess be (fun s => s.setBank b { s.bank b with gedr := w1c (s.bank b).gedr data (laneMask be) wAll }) s

/-! ## The rows of the opcode table -/

/-- `RD.GPLR0` (R300). -/
def execRdGplr0 (_be : Lanes) (s : State) : Result := readGplr 0 s

/-- `WR.GPLR0` (R301). -/
def execWrGplr0 (be : Lanes) (_data : Word) (s : State) : Result := writeGplr be s

/-- `RD.GPLR1` (R300). -/
def execRdGplr1 (_be : Lanes) (s : State) : Result := readGplr 1 s

/-- `WR.GPLR1` (R301). -/
def execWrGplr1 (be : Lanes) (_data : Word) (s : State) : Result := writeGplr be s

/-- `RD.GPLR2` (R300). -/
def execRdGplr2 (_be : Lanes) (s : State) : Result := readGplr 2 s

/-- `WR.GPLR2` (R301). -/
def execWrGplr2 (be : Lanes) (_data : Word) (s : State) : Result := writeGplr be s

/-- `RD.GPDR0` (R302). -/
def execRdGpdr0 (_be : Lanes) (s : State) : Result := readGpdr 0 s

/-- `WR.GPDR0` (R303). -/
def execWrGpdr0 (be : Lanes) (data : Word) (s : State) : Result := writeGpdr 0 be data s

/-- `RD.GPDR1` (R302). -/
def execRdGpdr1 (_be : Lanes) (s : State) : Result := readGpdr 1 s

/-- `WR.GPDR1` (R303). -/
def execWrGpdr1 (be : Lanes) (data : Word) (s : State) : Result := writeGpdr 1 be data s

/-- `RD.GPDR2` (R302). -/
def execRdGpdr2 (_be : Lanes) (s : State) : Result := readGpdr 2 s

/-- `WR.GPDR2` (R303). -/
def execWrGpdr2 (be : Lanes) (data : Word) (s : State) : Result := writeGpdr 2 be data s

/-- `RD.GPSR0` (R304). -/
def execRdGpsr0 (_be : Lanes) (s : State) : Result := readGpsr s

/-- `WR.GPSR0` (R305). -/
def execWrGpsr0 (be : Lanes) (data : Word) (s : State) : Result := writeGpsr 0 be data s

/-- `RD.GPSR1` (R304). -/
def execRdGpsr1 (_be : Lanes) (s : State) : Result := readGpsr s

/-- `WR.GPSR1` (R305). -/
def execWrGpsr1 (be : Lanes) (data : Word) (s : State) : Result := writeGpsr 1 be data s

/-- `RD.GPSR2` (R304). -/
def execRdGpsr2 (_be : Lanes) (s : State) : Result := readGpsr s

/-- `WR.GPSR2` (R305). -/
def execWrGpsr2 (be : Lanes) (data : Word) (s : State) : Result := writeGpsr 2 be data s

/-- `RD.GPCR0` (R306). -/
def execRdGpcr0 (_be : Lanes) (s : State) : Result := readGpcr s

/-- `WR.GPCR0` (R307). -/
def execWrGpcr0 (be : Lanes) (data : Word) (s : State) : Result := writeGpcr 0 be data s

/-- `RD.GPCR1` (R306). -/
def execRdGpcr1 (_be : Lanes) (s : State) : Result := readGpcr s

/-- `WR.GPCR1` (R307). -/
def execWrGpcr1 (be : Lanes) (data : Word) (s : State) : Result := writeGpcr 1 be data s

/-- `RD.GPCR2` (R306). -/
def execRdGpcr2 (_be : Lanes) (s : State) : Result := readGpcr s

/-- `WR.GPCR2` (R307). -/
def execWrGpcr2 (be : Lanes) (data : Word) (s : State) : Result := writeGpcr 2 be data s

/-- `RD.GRER0` (R308). -/
def execRdGrer0 (_be : Lanes) (s : State) : Result := readGrer 0 s

/-- `WR.GRER0` (R309). -/
def execWrGrer0 (be : Lanes) (data : Word) (s : State) : Result := writeGrer 0 be data s

/-- `RD.GRER1` (R308). -/
def execRdGrer1 (_be : Lanes) (s : State) : Result := readGrer 1 s

/-- `WR.GRER1` (R309). -/
def execWrGrer1 (be : Lanes) (data : Word) (s : State) : Result := writeGrer 1 be data s

/-- `RD.GRER2` (R308). -/
def execRdGrer2 (_be : Lanes) (s : State) : Result := readGrer 2 s

/-- `WR.GRER2` (R309). -/
def execWrGrer2 (be : Lanes) (data : Word) (s : State) : Result := writeGrer 2 be data s

/-- `RD.GFER0` (R310). -/
def execRdGfer0 (_be : Lanes) (s : State) : Result := readGfer 0 s

/-- `WR.GFER0` (R311). -/
def execWrGfer0 (be : Lanes) (data : Word) (s : State) : Result := writeGfer 0 be data s

/-- `RD.GFER1` (R310). -/
def execRdGfer1 (_be : Lanes) (s : State) : Result := readGfer 1 s

/-- `WR.GFER1` (R311). -/
def execWrGfer1 (be : Lanes) (data : Word) (s : State) : Result := writeGfer 1 be data s

/-- `RD.GFER2` (R310). -/
def execRdGfer2 (_be : Lanes) (s : State) : Result := readGfer 2 s

/-- `WR.GFER2` (R311). -/
def execWrGfer2 (be : Lanes) (data : Word) (s : State) : Result := writeGfer 2 be data s

/-- `RD.GEDR0` (R312). -/
def execRdGedr0 (_be : Lanes) (s : State) : Result := readGedr 0 s

/-- `WR.GEDR0` (R313). -/
def execWrGedr0 (be : Lanes) (data : Word) (s : State) : Result := writeGedr 0 be data s

/-- `RD.GEDR1` (R312). -/
def execRdGedr1 (_be : Lanes) (s : State) : Result := readGedr 1 s

/-- `WR.GEDR1` (R313). -/
def execWrGedr1 (be : Lanes) (data : Word) (s : State) : Result := writeGedr 1 be data s

/-- `RD.GEDR2` (R312). -/
def execRdGedr2 (_be : Lanes) (s : State) : Result := readGedr 2 s

/-- `WR.GEDR2` (R313). -/
def execWrGedr2 (be : Lanes) (data : Word) (s : State) : Result := writeGedr 2 be data s

end Sys2Proof.Machine
end

