-- ==== Sys2Proof/Machine/Interrupts.lean ====
section
/-! DEFINITION. The ten register operations of the Interrupt Controller (43_intc.md). Its recompute is `intcUpdate` in
Ops.lean, its source table `sources` in Flags.lean. ICIP, ICFP and ICPR are read-only: a write of them does nothing. -/

namespace Sys2Proof.Machine

/-- `RD.ICIP` (R230). -/
def execRdIcip (_be : Lanes) (s : State) : Result := readAccess (icipView s.intc) s

/-- `WR.ICIP`: nothing (R231). -/
def execWrIcip (be : Lanes) (_data : Word) (s : State) : Result := writeAccess be (fun s => s) s

/-- `RD.ICMR` (R232). -/
def execRdIcmr (_be : Lanes) (s : State) : Result := readAccess s.intc.icmr s

/-- `WR.ICMR` (R233). -/
def execWrIcmr (be : Lanes) (data : Word) (s : State) : Result :=
  writeAccess be (fun s => s.setIntc { s.intc with icmr := mergeAll s.intc.icmr be data }) s

/-- `RD.ICLR` (R237). -/
def execRdIclr (_be : Lanes) (s : State) : Result := readAccess s.intc.iclr s

/-- `WR.ICLR` (R238). -/
def execWrIclr (be : Lanes) (data : Word) (s : State) : Result :=
  writeAccess be (fun s => s.setIntc { s.intc with iclr := mergeAll s.intc.iclr be data }) s

/-- `RD.ICFP` (R239). -/
def execRdIcfp (_be : Lanes) (s : State) : Result := readAccess (icfpView s.intc) s

/-- `WR.ICFP`: nothing (R240). -/
def execWrIcfp (be : Lanes) (_data : Word) (s : State) : Result := writeAccess be (fun s => s) s

/-- `RD.ICPR` (R241). -/
def execRdIcpr (_be : Lanes) (s : State) : Result := readAccess s.intc.icpr s

/-- `WR.ICPR`: nothing (R242). -/
def execWrIcpr (be : Lanes) (_data : Word) (s : State) : Result := writeAccess be (fun s => s) s

end Sys2Proof.Machine
end

