-- ==== Sys2Proof/Machine/Lcd.lean ====
section
/-! DEFINITION. The Display (LCD) Controller (44_lcd.md): the sixteen register operations and the controller's events
enable, load, disable, streaming, palette load and end of frame. -/

namespace Sys2Proof.Machine

/-! ## Controller events -/

/-- A channel's working registers after the load of the branch descriptor at its branch pointer, the period taken from LPP
and PCD as they are now (R262, R277). -/
def loadedLcdChannel (m : Image) (lpp : BitVec 10) (pcd : BitVec 8) (c : LcdChannel) : LcdChannel :=
  { c with
    fdadr := descriptorWord m c.fdadr 0
    fsadr := descriptorWord m c.fdadr 1
    fidr := descriptorWord m c.fdadr 2
    ldcmd := descriptorWord m c.fdadr 3 &&& wLdcmd
    lrem := Config.lcdPeriod lpp pcd }

/-- `LcdLoad(n)` (R262). -/
def lcdLoad (n : LcdCh) (s : State) : State :=
  (s.setLcdChan n (loadedLcdChannel s.mem s.lcd.lpp s.lcd.pcd (s.lcdChan n))).setMem
    (afterDescriptor s.mem (s.lcdChan n).fdadr)

/-- `LcdEnable(n)`, on LCDEN[n] 0 to 1 (R261). -/
def lcdEnable (n : LcdCh) (s : State) : State := lcdLoad n s

/-- `LcdDisable(n)`, on LCDEN[n] 1 to 0: with LCDEN clear the channel is in no tick's due set, and everything else keeps
its value (R263). -/
def lcdDisable (_n : LcdCh) (s : State) : State := s

/-- The number of lines of a frame, `LPP + 1` (R44, R265). -/
def frameLines (lpp : BitVec 10) : Nat := lpp.toNat + 1

/-- How many bytes a streaming reads: one per pixel with PF = 0, two with PF = 1, none with an invalid format (R265,
R267). -/
def streamLength (lpp : BitVec 10) (c : LcdChannel) : Nat :=
  match (ldcmdPf c.ldcmd).toNat with
  | 0 => frameLines lpp * (ldcmdLlen c.ldcmd).toNat
  | 1 => 2 * (frameLines lpp * (ldcmdLlen c.ldcmd).toNat)
  | _ => 0

/-- A pixel of an 8-bit indexed frame: the palette entry of its byte (R265). -/
def indexedPixel (pal : Vector Word 256) (b : Byte) : Word := pal[b.toNat]'b.isLt

/-- The framebuffer a streaming leaves: `LPP + 1` contiguous lines of LLEN pixels in pixel format PF (R265); with an
invalid format the framebuffer keeps its content (R267). -/
def streamedFrame (m : Image) (pal : Vector Word 256) (lpp : BitVec 10) (c : LcdChannel) : FrameBuffer :=
  let bytes := runBytes (streamLength lpp c) c.fsadr m
  match (ldcmdPf c.ldcmd).toNat with
  | 0 => ⟨frameLines lpp, (ldcmdLlen c.ldcmd).toNat, bytes.map (indexedPixel pal)⟩
  | 1 => ⟨frameLines lpp, (ldcmdLlen c.ldcmd).toNat, (halves bytes).map (·.setWidth 32)⟩
  | _ => c.fb

/-- `LcdStream(n)` (R265). -/
def lcdStream (n : LcdCh) (s : State) : State :=
  (s.setLcdChan n { s.lcdChan n with fb := streamedFrame s.mem s.lcd.palette s.lcd.lpp (s.lcdChan n) }).setMem
    (runImage (streamLength s.lcd.lpp (s.lcdChan n)) (s.lcdChan n).fsadr s.mem)

/-- The number of palette entries a palette descriptor loads, `min(LLEN, 256)` (R266). -/
def paletteCount (c : LcdChannel) : Nat := min (ldcmdLlen c.ldcmd).toNat 256

/-- The palette after a palette load: the first entries read from memory, the others unchanged (R266). -/
def loadedPalette (m : Image) (c : LcdChannel) (pal : Vector Word 256) : Vector Word 256 :=
  let entries := halves (runBytes (2 * paletteCount c) c.fsadr m)
  Vector.ofFn fun k => if k.val < paletteCount c then (entries.getD k.val 0).setWidth 32 else pal[k]

/-- `LcdPaletteLoad(n)` (R266). -/
def lcdPaletteLoad (n : LcdCh) (s : State) : State :=
  (s.setLcd { s.lcd with palette := loadedPalette s.mem (s.lcdChan n) s.lcd.palette }).setMem
    (runImage (2 * paletteCount (s.lcdChan n)) (s.lcdChan n).fsadr s.mem)

/-- The `FrameOut` entry of channel n as its registers and framebuffer stand (R268). -/
def frameOutOf (n : LcdCh) (c : LcdChannel) : OutEvent := .frameOut n c.fidr c.fb.lines c.fb.llen c.fb.pix

/-- `LcdFire(n)`, the end-of-frame event, with the stale-event guard of R276 (R264). BINT and STOP are those of the
descriptor whose frame ended. -/
def lcdFire (n : LcdCh) (s : State) : State :=
  if s.lcd.lcden.getLsbD n then
    let cmd := (s.lcdChan n).ldcmd
    let s := if ldcmdPal cmd then lcdPaletteLoad n s else lcdStream n s
    let s := s.setLcd { s.lcd with eof := setBit s.lcd.eof n }
    let s := if ldcmdBint cmd then s.setLcd { s.lcd with bs := setBit s.lcd.bs n } else s
    let s := s.emit (frameOutOf n (s.lcdChan n))
    if ldcmdStop cmd then s.setLcd { s.lcd with lcden := clearBit s.lcd.lcden n } else lcdLoad n s
  else s

/-! ## Register operations -/

/-- The part of `WR.LCCR0` that concerns channel n: LCDEN[n] takes the written bit, then its transition is evaluated
(R251, R137). -/
def lccr0WriteBit (n : LcdCh) (be : Lanes) (d : Word) (s : State) : State :=
  let old := s.lcd.lcden.getLsbD n
  let new := if (laneMask be).getLsbD n then d.getLsbD n else old
  let s := s.setLcd { s.lcd with lcden := putBit s.lcd.lcden n new }
  if !old && new then lcdEnable n s
  else if old && !new then lcdDisable n s
  else s

/-- `RD.LCCR0` (R250). -/
def execRdLccr0 (_be : Lanes) (s : State) : Result := readAccess (lccr0Word s.lcd) s

/-- `WR.LCCR0`: channel 0 first (R251). -/
def execWrLccr0 (be : Lanes) (data : Word) (s : State) : Result :=
  writeAccess be (fun s => lccr0WriteBit 1 be data (lccr0WriteBit 0 be data s)) s

/-- `RD.LCCR2` (R252). -/
def execRdLccr2 (_be : Lanes) (s : State) : Result := readAccess (lccr2Word s.lcd) s

/-- `WR.LCCR2`: storage only (R253). -/
def execWrLccr2 (be : Lanes) (data : Word) (s : State) : Result :=
  writeAccess be
    (fun s => s.setLcd { s.lcd with lpp := (merge (lccr2Word s.lcd) data (laneMask be) wLpp).setWidth 10 }) s

/-- `RD.LCCR3` (R254). -/
def execRdLccr3 (_be : Lanes) (s : State) : Result := readAccess (lccr3Word s.lcd) s

/-- `WR.LCCR3`: storage only (R255). -/
def execWrLccr3 (be : Lanes) (data : Word) (s : State) : Result :=
  writeAccess be
    (fun s => s.setLcd { s.lcd with pcd := (merge (lccr3Word s.lcd) data (laneMask be) wPcd).setWidth 8 }) s

/-- `RD.LCSR` (R256). -/
def execRdLcsr (_be : Lanes) (s : State) : Result := readAccess (lcsrWord s.lcd) s

/-- `WR.LCSR`: write-one-to-clear of EOF and BS (R257). -/
def execWrLcsr (be : Lanes) (data : Word) (s : State) : Result :=
  writeAccess be
    (fun s =>
      let v := w1c (lcsrWord s.lcd) data (laneMask be) fLcsr
      s.setLcd { s.lcd with eof := v.extractLsb' 0 2, bs := v.extractLsb' 4 2 }) s

/-- `RD.FDADR` (R258). -/
def execRdFdadr (n : LcdCh) (_be : Lanes) (s : State) : Result := readAccess (s.lcdChan n).fdadr s

/-- `WR.FDADR`: storage only (R259). -/
def execWrFdadr (n : LcdCh) (be : Lanes) (data : Word) (s : State) : Result :=
  writeAccess be (fun s => s.setLcdChan n { s.lcdChan n with fdadr := mergeAll (s.lcdChan n).fdadr be data }) s

/-- `RD.FSADR` (R270). -/
def execRdFsadr (n : LcdCh) (_be : Lanes) (s : State) : Result := readAccess (s.lcdChan n).fsadr s

/-- `WR.FSADR`: storage only (R271). -/
def execWrFsadr (n : LcdCh) (be : Lanes) (data : Word) (s : State) : Result :=
  writeAccess be (fun s => s.setLcdChan n { s.lcdChan n with fsadr := mergeAll (s.lcdChan n).fsadr be data }) s

/-- `RD.FIDR` (R272). -/
def execRdFidr (n : LcdCh) (_be : Lanes) (s : State) : Result := readAccess (s.lcdChan n).fidr s

/-- `WR.FIDR`: storage only (R273). -/
def execWrFidr (n : LcdCh) (be : Lanes) (data : Word) (s : State) : Result :=
  writeAccess be (fun s => s.setLcdChan n { s.lcdChan n with fidr := mergeAll (s.lcdChan n).fidr be data }) s

/-- `RD.LDCMD` (R274). -/
def execRdLdcmd (n : LcdCh) (_be : Lanes) (s : State) : Result := readAccess (s.lcdChan n).ldcmd s

/-- `WR.LDCMD`: storage only, reserved bits dropped (R275). -/
def execWrLdcmd (n : LcdCh) (be : Lanes) (data : Word) (s : State) : Result :=
  writeAccess be
    (fun s => s.setLcdChan n { s.lcdChan n with ldcmd := merge (s.lcdChan n).ldcmd data (laneMask be) wLdcmd }) s

end Sys2Proof.Machine
end

