-- ==== Sys2Proof/Machine/Timer.lean ====
section
/-! DEFINITION. The Timer/Match Unit (42_timer.md): the eight register operations, and the arming and firing of the match
slots. -/

namespace Sys2Proof.Machine

/-- `TmrArm(i)`: the slot has one pending event, at the next tick whose counter equals OSMR[i] (R211). -/
def armSlot (i : Slot) (t : Timer) : Timer := { t with armed := setBit t.armed i }

/-- `TmrArm` of every slot (R203). -/
def armAllSlots (t : Timer) : Timer := armSlot 3 (armSlot 2 (armSlot 1 (armSlot 0 t)))

/-- `TmrFire(i)`: the status flag latches and the slot is disarmed (R212). -/
def tmrFire (i : Slot) (s : State) : State :=
  s.setTimer { s.timer with ossr := setBit s.timer.ossr i, armed := clearBit s.timer.armed i }

/-- The counting of one tick: OSCR + 1 modulo 2^32 (R210). -/
def countTick (t : Timer) : Timer := { t with oscr := t.oscr + 1 }

/-- The match condition of slot i, on all 32 bits (R138, R216). -/
def slotDue (t : Timer) (i : Slot) : Bool := t.armed.getLsbD i && t.oscr == t.osmr[i]

/-- `RD.OSMR` (R200). -/
def execRdOsmr (i : Slot) (_be : Lanes) (s : State) : Result := readAccess s.timer.osmr[i] s

/-- `WR.OSMR`: the match value is merged and the slot armed (R201). -/
def execWrOsmr (i : Slot) (be : Lanes) (data : Word) (s : State) : Result :=
  writeAccess be
    (fun s => s.setTimer (armSlot i { s.timer with osmr := s.timer.osmr.set i (mergeAll s.timer.osmr[i] be data) })) s

/-- `RD.OSCR` (R202). -/
def execRdOscr (_be : Lanes) (s : State) : Result := readAccess s.timer.oscr s

/-- `WR.OSCR`: the counter is merged and all four slots armed (R203). -/
def execWrOscr (be : Lanes) (data : Word) (s : State) : Result :=
  writeAccess be (fun s => s.setTimer (armAllSlots { s.timer with oscr := mergeAll s.timer.oscr be data })) s

/-- `RD.OSSR` (R204). -/
def execRdOssr (_be : Lanes) (s : State) : Result := readAccess (ossrWord s.timer) s

/-- `WR.OSSR`: write-one-to-clear; nothing is re-armed (R205). -/
def execWrOssr (be : Lanes) (data : Word) (s : State) : Result :=
  writeAccess be
    (fun s => s.setTimer { s.timer with ossr := (w1c (ossrWord s.timer) data (laneMask be) wSlots).setWidth 4 }) s

/-- `RD.OIER` (R206). -/
def execRdOier (_be : Lanes) (s : State) : Result := readAccess (oierWord s.timer) s

/-- `WR.OIER` (R207). -/
def execWrOier (be : Lanes) (data : Word) (s : State) : Result :=
  writeAccess be
    (fun s => s.setTimer { s.timer with oier := (merge (oierWord s.timer) data (laneMask be) wSlots).setWidth 4 }) s

end Sys2Proof.Machine
end

