-- ==== Sys2Proof/Machine/Dispatch.lean ====
section
/-! DEFINITION. The dispatch of a decoded access to its meaning (40_dispatcher.md R130): one arm per row of
spec/opcode_table.json. -/

namespace Sys2Proof.Machine

def exec (i : Instr) (s : State) : Host.Outcome State Fault Refusal :=
  match i with
  | .rdDcsr ch be => Sys2Proof.Machine.execRdDcsr ch be s
  | .wrDcsr ch be data => Sys2Proof.Machine.execWrDcsr ch be data s
  | .rdDint be => Sys2Proof.Machine.execRdDint be s
  | .wrDint be data => Sys2Proof.Machine.execWrDint be data s
  | .rdDdadr ch be => Sys2Proof.Machine.execRdDdadr ch be s
  | .wrDdadr ch be data => Sys2Proof.Machine.execWrDdadr ch be data s
  | .rdDsadr ch be => Sys2Proof.Machine.execRdDsadr ch be s
  | .wrDsadr ch be data => Sys2Proof.Machine.execWrDsadr ch be data s
  | .rdDtadr ch be => Sys2Proof.Machine.execRdDtadr ch be s
  | .wrDtadr ch be data => Sys2Proof.Machine.execWrDtadr ch be data s
  | .rdDcmd ch be => Sys2Proof.Machine.execRdDcmd ch be s
  | .wrDcmd ch be data => Sys2Proof.Machine.execWrDcmd ch be data s
  | .rdOsmr slot be => Sys2Proof.Machine.execRdOsmr slot be s
  | .wrOsmr slot be data => Sys2Proof.Machine.execWrOsmr slot be data s
  | .rdOscr be => Sys2Proof.Machine.execRdOscr be s
  | .wrOscr be data => Sys2Proof.Machine.execWrOscr be data s
  | .rdOssr be => Sys2Proof.Machine.execRdOssr be s
  | .wrOssr be data => Sys2Proof.Machine.execWrOssr be data s
  | .rdOier be => Sys2Proof.Machine.execRdOier be s
  | .wrOier be data => Sys2Proof.Machine.execWrOier be data s
  | .rdIcip be => Sys2Proof.Machine.execRdIcip be s
  | .wrIcip be data => Sys2Proof.Machine.execWrIcip be data s
  | .rdIcmr be => Sys2Proof.Machine.execRdIcmr be s
  | .wrIcmr be data => Sys2Proof.Machine.execWrIcmr be data s
  | .rdIclr be => Sys2Proof.Machine.execRdIclr be s
  | .wrIclr be data => Sys2Proof.Machine.execWrIclr be data s
  | .rdIcfp be => Sys2Proof.Machine.execRdIcfp be s
  | .wrIcfp be data => Sys2Proof.Machine.execWrIcfp be data s
  | .rdIcpr be => Sys2Proof.Machine.execRdIcpr be s
  | .wrIcpr be data => Sys2Proof.Machine.execWrIcpr be data s
  | .rdLccr0 be => Sys2Proof.Machine.execRdLccr0 be s
  | .wrLccr0 be data => Sys2Proof.Machine.execWrLccr0 be data s
  | .rdLccr2 be => Sys2Proof.Machine.execRdLccr2 be s
  | .wrLccr2 be data => Sys2Proof.Machine.execWrLccr2 be data s
  | .rdLccr3 be => Sys2Proof.Machine.execRdLccr3 be s
  | .wrLccr3 be data => Sys2Proof.Machine.execWrLccr3 be data s
  | .rdLcsr be => Sys2Proof.Machine.execRdLcsr be s
  | .wrLcsr be data => Sys2Proof.Machine.execWrLcsr be data s
  | .rdFdadr n be => Sys2Proof.Machine.execRdFdadr n be s
  | .wrFdadr n be data => Sys2Proof.Machine.execWrFdadr n be data s
  | .rdFsadr n be => Sys2Proof.Machine.execRdFsadr n be s
  | .wrFsadr n be data => Sys2Proof.Machine.execWrFsadr n be data s
  | .rdFidr n be => Sys2Proof.Machine.execRdFidr n be s
  | .wrFidr n be data => Sys2Proof.Machine.execWrFidr n be data s
  | .rdLdcmd n be => Sys2Proof.Machine.execRdLdcmd n be s
  | .wrLdcmd n be data => Sys2Proof.Machine.execWrLdcmd n be data s
  | .rdGplr0 be => Sys2Proof.Machine.execRdGplr0 be s
  | .wrGplr0 be data => Sys2Proof.Machine.execWrGplr0 be data s
  | .rdGplr1 be => Sys2Proof.Machine.execRdGplr1 be s
  | .wrGplr1 be data => Sys2Proof.Machine.execWrGplr1 be data s
  | .rdGplr2 be => Sys2Proof.Machine.execRdGplr2 be s
  | .wrGplr2 be data => Sys2Proof.Machine.execWrGplr2 be data s
  | .rdGpdr0 be => Sys2Proof.Machine.execRdGpdr0 be s
  | .wrGpdr0 be data => Sys2Proof.Machine.execWrGpdr0 be data s
  | .rdGpdr1 be => Sys2Proof.Machine.execRdGpdr1 be s
  | .wrGpdr1 be data => Sys2Proof.Machine.execWrGpdr1 be data s
  | .rdGpdr2 be => Sys2Proof.Machine.execRdGpdr2 be s
  | .wrGpdr2 be data => Sys2Proof.Machine.execWrGpdr2 be data s
  | .rdGpsr0 be => Sys2Proof.Machine.execRdGpsr0 be s
  | .wrGpsr0 be data => Sys2Proof.Machine.execWrGpsr0 be data s
  | .rdGpsr1 be => Sys2Proof.Machine.execRdGpsr1 be s
  | .wrGpsr1 be data => Sys2Proof.Machine.execWrGpsr1 be data s
  | .rdGpsr2 be => Sys2Proof.Machine.execRdGpsr2 be s
  | .wrGpsr2 be data => Sys2Proof.Machine.execWrGpsr2 be data s
  | .rdGpcr0 be => Sys2Proof.Machine.execRdGpcr0 be s
  | .wrGpcr0 be data => Sys2Proof.Machine.execWrGpcr0 be data s
  | .rdGpcr1 be => Sys2Proof.Machine.execRdGpcr1 be s
  | .wrGpcr1 be data => Sys2Proof.Machine.execWrGpcr1 be data s
  | .rdGpcr2 be => Sys2Proof.Machine.execRdGpcr2 be s
  | .wrGpcr2 be data => Sys2Proof.Machine.execWrGpcr2 be data s
  | .rdGrer0 be => Sys2Proof.Machine.execRdGrer0 be s
  | .wrGrer0 be data => Sys2Proof.Machine.execWrGrer0 be data s
  | .rdGrer1 be => Sys2Proof.Machine.execRdGrer1 be s
  | .wrGrer1 be data => Sys2Proof.Machine.execWrGrer1 be data s
  | .rdGrer2 be => Sys2Proof.Machine.execRdGrer2 be s
  | .wrGrer2 be data => Sys2Proof.Machine.execWrGrer2 be data s
  | .rdGfer0 be => Sys2Proof.Machine.execRdGfer0 be s
  | .wrGfer0 be data => Sys2Proof.Machine.execWrGfer0 be data s
  | .rdGfer1 be => Sys2Proof.Machine.execRdGfer1 be s
  | .wrGfer1 be data => Sys2Proof.Machine.execWrGfer1 be data s
  | .rdGfer2 be => Sys2Proof.Machine.execRdGfer2 be s
  | .wrGfer2 be data => Sys2Proof.Machine.execWrGfer2 be data s
  | .rdGedr0 be => Sys2Proof.Machine.execRdGedr0 be s
  | .wrGedr0 be data => Sys2Proof.Machine.execWrGedr0 be data s
  | .rdGedr1 be => Sys2Proof.Machine.execRdGedr1 be s
  | .wrGedr1 be data => Sys2Proof.Machine.execWrGedr1 be data s
  | .rdGedr2 be => Sys2Proof.Machine.execRdGedr2 be s
  | .wrGedr2 be data => Sys2Proof.Machine.execWrGedr2 be data s
  | .rdAudio word be => Sys2Proof.Machine.execRdAudio word be s
  | .wrAudio word be data => Sys2Proof.Machine.execWrAudio word be data s
  | .rdAudioTop be => Sys2Proof.Machine.execRdAudioTop be s
  | .wrAudioTop be data => Sys2Proof.Machine.execWrAudioTop be data s
  | .rdUnmapped off be => Sys2Proof.Machine.execRdUnmapped off be s
  | .wrUnmapped off be data => Sys2Proof.Machine.execWrUnmapped off be data s

end Sys2Proof.Machine
end

