-- ==== Sys2Proof/Machine/Tick.lean ====
section
/-! DEFINITION. The `Tick` step (40_dispatcher.md R138, R139), in which every scheduled event of every sub-block fires,
and the `Reset` step (70_reset_and_hazards.md R360 to R362). -/

namespace Sys2Proof.Machine

/-- The slots in ascending order. -/
def allSlots : List Slot := [0, 1, 2, 3]

/-- The DMA channels in ascending order. -/
def allChannels : List Channel := [0, 1, 2, 3, 4, 5, 6, 7, 8, 9, 10, 11, 12, 13, 14, 15]

/-- The LCD channels in ascending order. -/
def allLcd : List LcdCh := [0, 1]

/-- A DMA channel's countdown moves while it runs (R138). -/
def countDownDma (c : DmaChannel) : DmaChannel := if c.run then { c with drem := c.drem - 1 } else c

/-- An LCD channel's countdown moves while it is enabled (R138). -/
def countDownLcd (enabled : Bool) (c : LcdChannel) : LcdChannel := if enabled then { c with lrem := c.lrem - 1 } else c

/-- The counter and all countdowns move by one tick, before any event fires (R138). -/
def advanceTime (s : State) : State :=
  { s with
    timer := countTick s.timer
    dma := { s.dma with chan := Vector.ofFn fun ch : Channel => countDownDma s.dma.chan[ch] }
    lcd := { s.lcd with
      chan := Vector.ofFn fun n : LcdCh => countDownLcd (s.lcd.lcden.getLsbD n) s.lcd.chan[n] } }

/-- The DMA channel's completion event is due (R138). -/
def dmaDue (s : State) (ch : Channel) : Bool := (s.chan ch).run && (s.chan ch).drem == 0

/-- The LCD channel's end-of-frame event is due (R138). -/
def lcdDue (s : State) (n : LcdCh) : Bool := s.lcd.lcden.getLsbD n && (s.lcdChan n).lrem == 0

/-- The due set, computed once after the counter and the countdowns have moved (R138), listed in the spec's default
order: timer slots, DMA channels, LCD channels (R139). -/
def dueEvents (s : State) : List Event :=
  (allSlots.filter (slotDue s.timer)).map Event.tmr ++ (allChannels.filter (dmaDue s)).map Event.dma ++
    (allLcd.filter (lcdDue s)).map Event.lcd

/-- Put an event before the first event of a list whose rank is not smaller. -/
def insertEvent (rank : Event → Nat) (e : Event) : List Event → List Event
  | [] => [e]
  | x :: rest => if rank e ≤ rank x then e :: x :: rest else x :: insertEvent rank e rest

/-- `TIE_ORDER(due)` for a rank: a total order of the due set, every order arising from some rank (R139). -/
def tieOrder (rank : Event → Nat) : List Event → List Event
  | [] => []
  | e :: rest => insertEvent rank e (tieOrder rank rest)

/-- Fire one event (R138). -/
def fireEvent (s : State) : Event → State
  | .tmr i => tmrFire i s
  | .dma ch => dmaFire ch s
  | .lcd n => lcdFire n s

/-- Fire a list of events one after the other, never interleaved (R83). -/
def fireAll : List Event → State → State
  | [], s => s
  | e :: rest, s => fireAll rest (fireEvent s e)

/-- The events a tick fires, in the order it fires them (R138, R139). -/
def firingOrder (s : State) : List Event := tieOrder (Config.tieRank s.draws) (dueEvents (advanceTime s))

/-- `Tick` (R138). It returns nothing; the model's draw number advances, because the order was drawn. -/
def tickStep (s : State) : State := intcUpdate ((fireAll (firingOrder s) (advanceTime s)).draw.answer none)

/-- `Reset`: every state element of R64 takes its reset value, the palette is drawn anew and the lines are recomputed
(R360). The memory image and the output trace stay (R361), and so does the environment's list of stimuli. -/
def resetStep (s : State) : State :=
  intcUpdate
    { s with
      timer := Timer.reset
      dma := Dma.reset
      intc := Intc.reset
      lcd := Lcd.reset s.draws
      gpio := Vector.replicate 3 GpioBank.reset
      rdata := none
      draws := s.draws + 1 }

/-- The environment writes bytes into its plain memory between two steps of the block (20_memory.md R72). -/
def envMemStep (addr : Word) (bytes : List Byte) (s : State) : State :=
  s.setMem { s.mem with cells := Memory.putBytes addr bytes s.mem.cells }

/-- The environment decides what lies behind the addresses of the memory image (20_memory.md R71, R79). -/
def envPortsStep (ranges : List PortRange) (answers : List Byte) (s : State) : State :=
  s.setMem { s.mem with ports := ranges, answers := answers }

end Sys2Proof.Machine
end

