-- ==== Sys2Proof/Machine/Step.lean ====
section
/-! DEFINITION. One step of the machine: the block takes the next stimulus of its environment (00_scope.md R12). With no
stimulus waiting nothing happens (log entry 1). -/

namespace Sys2Proof.Machine

/-- What one stimulus does to the block. -/
def applyStimulus (x : Stimulus) (s : State) : Host.Outcome State Fault Refusal :=
  match x with
  | .access a => exec (decode a) s
  | .tick => .next (tickStep s)
  | .pin b p level => pinOrRefuse b p level s
  | .reset => .next (resetStep s)
  | .mem addr bytes => .next (envMemStep addr bytes s)
  | .ports ranges answers => .next (envPortsStep ranges answers s)

/-- One step: the first stimulus of the inbox is taken out and applied. -/
def step (s : State) : Host.Outcome State Fault Refusal :=
  match s.inbox with
  | [] => .next s
  | x :: rest => applyStimulus x { s with inbox := rest }

/-- The state whose very next step runs the access of the table's word w: the access is put in front of the stimuli the
environment has chosen (log entry 2). -/
def State.withFetchWord (s : State) (_nbits w : Nat) : State :=
  { s with inbox := .access (accessOfWord w) :: s.inbox }

end Sys2Proof.Machine
end

