-- ==== Sys2Proof/Safety.lean ====
section
/-! DEFINITION. The terms claims about the machine are stated in: the invariant of 10_state.md R65 clause by clause, what a
lane-masked write does bit by bit, what an access leaves unchanged, and runs of ticks. None of these is read by the
machine. -/

namespace Sys2Proof.Machine

/-! ## The invariant of R65 -/

/-- R65 (a): a running DMA channel's completion event lies ahead. -/
def RunningLive (s : State) : Prop := ∀ ch : Channel, (s.chan ch).run = true → 1 ≤ (s.chan ch).drem

/-- R65 (b): an enabled LCD channel's end of frame lies ahead. -/
def EnabledLive (s : State) : Prop := ∀ n : LcdCh, s.lcd.lcden.getLsbD n = true → 1 ≤ (s.lcdChan n).lrem

/-- R65 (c): ICPR is the source function of the state. -/
def SourcesLatched (s : State) : Prop := s.intc.icpr = sources s

/-- R65 (d): the lines are the two ORs of R235. -/
def LinesDriven (s : State) : Prop :=
  s.intc.irqLine = (icipView s.intc != 0) ∧ s.intc.fiqLine = (icfpView s.intc != 0)

/-- R65 (e), for the two registers held as whole words: reserved bits are 0. The other registers have no storage for
theirs. -/
def ReservedZero (s : State) : Prop :=
  (∀ ch : Channel, (s.chan ch).dcmd &&& ~~~wDcmd = 0) ∧ ∀ n : LcdCh, (s.lcdChan n).ldcmd &&& ~~~wLdcmd = 0

/-- R65 (f): a framebuffer holds exactly `lines * llen` pixels. -/
def FramesSized (s : State) : Prop :=
  ∀ n : LcdCh, (s.lcdChan n).fb.pix.length = (s.lcdChan n).fb.lines * (s.lcdChan n).fb.llen

/-- The invariant of R65, with the model's own canonical form of the plain memory. -/
structure Inv (s : State) : Prop where
  running : RunningLive s
  enabled : EnabledLive s
  latched : SourcesLatched s
  driven : LinesDriven s
  reserved : ReservedZero s
  frames : FramesSized s
  memory : Memory.wf s.mem.cells = true

/-! ## Lane-masked writes, bit by bit -/

/-- Bit k of a register word lies in an enabled lane (R74, R102). -/
def laneOn (be : Lanes) (k : Nat) : Bool := be.getLsbD (k / 8)

/-- `new` is `old` with the writable bits w of the enabled lanes taken from d (R22). -/
def Merged (old new d w : Word) (be : Lanes) : Prop :=
  ∀ k, k < 32 → new.getLsbD k = if laneOn be k && w.getLsbD k then d.getLsbD k else old.getLsbD k

/-- `new` is `old` with the flag bits w cleared where an enabled lane of d writes a 1 (R24). -/
def ClearedByOnes (old new d w : Word) (be : Lanes) : Prop :=
  ∀ k, k < 32 → new.getLsbD k = (old.getLsbD k && !(laneOn be k && w.getLsbD k && d.getLsbD k))

/-! ## What interrupt recomputation leaves -/

/-- Interrupt source k is high: the table of R243 read row by row. -/
def SourceHigh (s : State) (k : Nat) : Prop :=
  match k with
  | 8 => (s.bank 0).gedr.getLsbD 0 = true
  | 9 => (s.bank 0).gedr.getLsbD 1 = true
  | 10 => (∃ p, 2 ≤ p ∧ (s.bank 0).gedr.getLsbD p = true) ∨ (∃ p, (s.bank 1).gedr.getLsbD p = true) ∨
      ∃ p, (s.bank 2).gedr.getLsbD p = true
  | 17 => s.lcd.bs.getLsbD 0 = true ∨ s.lcd.bs.getLsbD 1 = true
  | 25 => ∃ ch : Channel, s.dma.irqp.getLsbD ch = true
  | 26 => s.timer.ossr.getLsbD 0 = true ∧ s.timer.oier.getLsbD 0 = true
  | 27 => s.timer.ossr.getLsbD 1 = true ∧ s.timer.oier.getLsbD 1 = true
  | 28 => s.timer.ossr.getLsbD 2 = true ∧ s.timer.oier.getLsbD 2 = true
  | 29 => s.timer.ossr.getLsbD 3 = true ∧ s.timer.oier.getLsbD 3 = true
  | _ => False

/-- ICPR shows every source's level, and each line is up exactly when some pending unmasked source is routed to it
(R243, R245). -/
structure Settled (s : State) : Prop where
  raw : ∀ k, s.intc.icpr.getLsbD k = true ↔ SourceHigh s k
  irq : s.intc.irqLine = true ↔
    ∃ k, s.intc.icpr.getLsbD k = true ∧ s.intc.icmr.getLsbD k = true ∧ s.intc.iclr.getLsbD k = false
  fiq : s.intc.fiqLine = true ↔
    ∃ k, s.intc.icpr.getLsbD k = true ∧ s.intc.icmr.getLsbD k = true ∧ s.intc.iclr.getLsbD k = true

/-! ## Frames -/

/-- The two images are the same: every byte of the one reads as that of the other, and so does every later byte. -/
structure SameImage (m m' : Image) : Prop where
  image : m' = m
  bytes : ∀ a : Word, readByte m' a = readByte m a

/-- The memory image is as before. -/
def SameMem (s t : State) : Prop := SameImage s.mem t.mem

/-- The block has at most read: every byte of plain memory is as before, the ports are where they were, and what has
reached them is reads. -/
structure OnlyRead (m m' : Image) : Prop where
  plain : ∀ a : Word, plainByte m' a = plainByte m a
  ports : m'.ports = m.ports
  reads : ∃ l, m'.log = m.log ++ l ∧ ∀ x ∈ l, ∃ a v, x = .read a v

/-- None of the n addresses from a upward is a port. -/
def PlainRun (m : Image) (a : Word) (n : Nat) : Prop := ∀ k, k < n → m.isPort (a + BitVec.ofNat 32 k) = false

/-- The model's own fields after a write: it returned nothing, took no stimulus and drew nothing. -/
def OwnAfterWrite (s t : State) : Prop := t.rdata = none ∧ t.inbox = s.inbox ∧ t.draws = s.draws

/-- What a write with lanes `be` does to the interrupt controller when it is not itself a write of ICMR or ICLR: with a
lane enabled the raw bits and the lines settle (R130, R140), with none enabled nothing moves (R133). -/
def IntcFollows (be : Lanes) (s t : State) : Prop :=
  t.intc.icmr = s.intc.icmr ∧ t.intc.iclr = s.intc.iclr ∧ (be ≠ 0 → Settled t) ∧ (be = 0 → t.intc = s.intc)

/-- A write that touches only the timer unit's registers. -/
structure OnlyTimer (be : Lanes) (s t : State) : Prop where
  dma : t.dma = s.dma
  lcd : t.lcd = s.lcd
  gpio : t.gpio = s.gpio
  trace : t.trace = s.trace
  mem : SameMem s t
  own : OwnAfterWrite s t
  intc : IntcFollows be s t

/-- A write that touches only the registers of DMA channel ch and leaves the memory image m: the one before the write,
unless the write loads a descriptor. -/
structure OnlyChannel (ch : Channel) (be : Lanes) (s : State) (m : Image) (t : State) : Prop where
  others : ∀ c : Channel, c ≠ ch → t.chan c = s.chan c
  irqp : t.dma.irqp = s.dma.irqp
  timer : t.timer = s.timer
  lcd : t.lcd = s.lcd
  gpio : t.gpio = s.gpio
  trace : t.trace = s.trace
  mem : SameImage m t.mem
  own : OwnAfterWrite s t
  intc : IntcFollows be s t

/-- A write that touches only the LCD controller's registers and leaves the memory image m: the one before the write,
unless the write loads a branch descriptor. -/
structure OnlyLcd (be : Lanes) (s : State) (m : Image) (t : State) : Prop where
  timer : t.timer = s.timer
  dma : t.dma = s.dma
  gpio : t.gpio = s.gpio
  trace : t.trace = s.trace
  mem : SameImage m t.mem
  own : OwnAfterWrite s t
  intc : IntcFollows be s t

/-- A write that touches only the registers of GPIO bank b; what it appends to the trace is said beside it. -/
structure OnlyBank (b : Bank) (be : Lanes) (s t : State) : Prop where
  others : ∀ c : Bank, c ≠ b → t.bank c = s.bank c
  timer : t.timer = s.timer
  dma : t.dma = s.dma
  lcd : t.lcd = s.lcd
  mem : SameMem s t
  own : OwnAfterWrite s t
  intc : IntcFollows be s t

/-- A write that touches only the registers of the interrupt controller. With a lane enabled the raw bits and the lines
settle, with none enabled nothing moves. -/
structure OnlyIntc (be : Lanes) (s t : State) : Prop where
  timer : t.timer = s.timer
  dma : t.dma = s.dma
  lcd : t.lcd = s.lcd
  gpio : t.gpio = s.gpio
  trace : t.trace = s.trace
  mem : SameMem s t
  own : OwnAfterWrite s t
  settled : be ≠ 0 → Settled t
  still : be = 0 → t.intc = s.intc

/-- An event or an access that touches neither the interrupt controller nor the GPIO block nor the model's own fields. -/
structure EventFrame (s t : State) : Prop where
  intc : t.intc = s.intc
  gpio : t.gpio = s.gpio
  rdata : t.rdata = s.rdata
  inbox : t.inbox = s.inbox
  draws : t.draws = s.draws

/-- The read i answers v and changes nothing else (R23). -/
def Reads (i : Instr) (s : State) (v : Word) : Prop := exec i s = .next { s with rdata := some v }

/-! ## Descriptors and address ranges -/

/-- Bytes k to k + 3 of a run of reads are the word v, least significant byte first (R73). -/
def LittleEndianWord (bs : List Byte) (k : Nat) (v : Word) : Prop :=
  v.toNat = (bs.getD k 0).toNat + 2 ^ 8 * (bs.getD (k + 1) 0).toNat + 2 ^ 16 * (bs.getD (k + 2) 0).toNat +
    2 ^ 24 * (bs.getD (k + 3) 0).toNat

/-- The four consecutive words of the descriptor at byte address a, its sixteen bytes read in ascending order
(30_encoding.md R112, R115). On plain memory they are the bytes at a to a + 15. -/
def DescriptorAt (m : Image) (a w0 w1 w2 w3 : Word) : Prop :=
  LittleEndianWord (runBytes 16 a m) 0 w0 ∧ LittleEndianWord (runBytes 16 a m) 4 w1 ∧
    LittleEndianWord (runBytes 16 a m) 8 w2 ∧ LittleEndianWord (runBytes 16 a m) 12 w3

/-- The channel's working registers hold the descriptor at a, and its completion is scheduled (41_dma.md R164). -/
def ChannelLoaded (m : Image) (a : Word) (c : DmaChannel) : Prop :=
  ∃ w3 : Word, DescriptorAt m a c.ddadr c.dsadr c.dtadr w3 ∧ c.dcmd = w3 &&& 0xF0A31FFF ∧
    c.drem = Config.dmaDuration (c.dcmd.extractLsb' 0 13) (c.dcmd.extractLsb' 16 2) ∧ 1 ≤ c.drem

/-- The working registers and the countdown of a DMA channel are the same. -/
def SameWorking (c c' : DmaChannel) : Prop :=
  c'.ddadr = c.ddadr ∧ c'.dsadr = c.dsadr ∧ c'.dtadr = c.dtadr ∧ c'.dcmd = c.dcmd ∧ c'.drem = c.drem

/-- The LCD channel's working registers hold the branch descriptor at a, and its end of frame is scheduled with the given
line count and pixel clock (44_lcd.md R262). -/
def LcdChannelLoaded (m : Image) (a : Word) (lpp : BitVec 10) (pcd : BitVec 8) (c : LcdChannel) : Prop :=
  ∃ w3 : Word, DescriptorAt m a c.fdadr c.fsadr c.fidr w3 ∧ c.ldcmd = w3 &&& 0x04A31FFF ∧
    c.lrem = Config.lcdPeriod lpp pcd ∧ 1 ≤ c.lrem

/-- The working registers and the countdown of an LCD channel are the same. -/
def SameLcdWorking (c c' : LcdChannel) : Prop :=
  c'.fdadr = c.fdadr ∧ c'.fsadr = c.fsadr ∧ c'.fidr = c.fidr ∧ c'.ldcmd = c.ldcmd ∧ c'.lrem = c.lrem

/-- Address k of a DMA range: `a + k` modulo 2^32 in the incrementing mode, `a` in the fixed mode (R166). -/
def rangeAddr (inc : Bool) (a : Word) (k : Nat) : Word := if inc then a + BitVec.ofNat 32 k else a

/-! ## The GPIO rows of the opcode table, by bank -/

/-- `RD.GPLR0`, `RD.GPLR1`, `RD.GPLR2`. -/
def rdGplr (b : Bank) (be : Lanes) : Instr :=
  match b with | 0 => .rdGplr0 be | 1 => .rdGplr1 be | 2 => .rdGplr2 be

/-- `RD.GPDR0`, `RD.GPDR1`, `RD.GPDR2`. -/
def rdGpdr (b : Bank) (be : Lanes) : Instr :=
  match b with | 0 => .rdGpdr0 be | 1 => .rdGpdr1 be | 2 => .rdGpdr2 be

/-- `RD.GPSR0`, `RD.GPSR1`, `RD.GPSR2`. -/
def rdGpsr (b : Bank) (be : Lanes) : Instr :=
  match b with | 0 => .rdGpsr0 be | 1 => .rdGpsr1 be | 2 => .rdGpsr2 be

/-- `RD.GPCR0`, `RD.GPCR1`, `RD.GPCR2`. -/
def rdGpcr (b : Bank) (be : Lanes) : Instr :=
  match b with | 0 => .rdGpcr0 be | 1 => .rdGpcr1 be | 2 => .rdGpcr2 be

/-- `RD.GRER0`, `RD.GRER1`, `RD.GRER2`. -/
def rdGrer (b : Bank) (be : Lanes) : Instr :=
  match b with | 0 => .rdGrer0 be | 1 => .rdGrer1 be | 2 => .rdGrer2 be

/-- `RD.GFER0`, `RD.GFER1`, `RD.GFER2`. -/
def rdGfer (b : Bank) (be : Lanes) : Instr :=
  match b with | 0 => .rdGfer0 be | 1 => .rdGfer1 be | 2 => .rdGfer2 be

/-- `RD.GEDR0`, `RD.GEDR1`, `RD.GEDR2`. -/
def rdGedr (b : Bank) (be : Lanes) : Instr :=
  match b with | 0 => .rdGedr0 be | 1 => .rdGedr1 be | 2 => .rdGedr2 be

/-- `WR.GPLR0`, `WR.GPLR1`, `WR.GPLR2`. -/
def wrGplr (b : Bank) (be : Lanes) (d : Word) : Instr :=
  match b with | 0 => .wrGplr0 be d | 1 => .wrGplr1 be d | 2 => .wrGplr2 be d

/-- `WR.GPDR0`, `WR.GPDR1`, `WR.GPDR2`. -/
def wrGpdr (b : Bank) (be : Lanes) (d : Word) : Instr :=
  match b with | 0 => .wrGpdr0 be d | 1 => .wrGpdr1 be d | 2 => .wrGpdr2 be d

/-- `WR.GPSR0`, `WR.GPSR1`, `WR.GPSR2`. -/
def wrGpsr (b : Bank) (be : Lanes) (d : Word) : Instr :=
  match b with | 0 => .wrGpsr0 be d | 1 => .wrGpsr1 be d | 2 => .wrGpsr2 be d

/-- `WR.GPCR0`, `WR.GPCR1`, `WR.GPCR2`. -/
def wrGpcr (b : Bank) (be : Lanes) (d : Word) : Instr :=
  match b with | 0 => .wrGpcr0 be d | 1 => .wrGpcr1 be d | 2 => .wrGpcr2 be d

/-- `WR.GRER0`, `WR.GRER1`, `WR.GRER2`. -/
def wrGrer (b : Bank) (be : Lanes) (d : Word) : Instr :=
  match b with | 0 => .wrGrer0 be d | 1 => .wrGrer1 be d | 2 => .wrGrer2 be d

/-- `WR.GFER0`, `WR.GFER1`, `WR.GFER2`. -/
def wrGfer (b : Bank) (be : Lanes) (d : Word) : Instr :=
  match b with | 0 => .wrGfer0 be d | 1 => .wrGfer1 be d | 2 => .wrGfer2 be d

/-- `WR.GEDR0`, `WR.GEDR1`, `WR.GEDR2`. -/
def wrGedr (b : Bank) (be : Lanes) (d : Word) : Instr :=
  match b with | 0 => .wrGedr0 be d | 1 => .wrGedr1 be d | 2 => .wrGedr2 be d

/-! ## Runs of ticks -/

/-- The state after k ticks and nothing else. -/
def ticks : Nat → State → State
  | 0, s => s
  | k + 1, s => tickStep (ticks k s)

/-- Everything that no order of simultaneous events can change (R139): all but the trace, the memory image, and what an
event loads or computes from the memory image. -/
structure SameFlags (s t : State) : Prop where
  timer : t.timer = s.timer
  irqp : t.dma.irqp = s.dma.irqp
  dmaRun : ∀ ch : Channel, (t.chan ch).run = (s.chan ch).run
  dmaEnd : ∀ ch : Channel, (t.chan ch).endFlag = (s.chan ch).endFlag
  dmaStored : ∀ ch : Channel, (t.chan ch).busErr = (s.chan ch).busErr ∧ (t.chan ch).en = (s.chan ch).en ∧
    (t.chan ch).pause = (s.chan ch).pause ∧ (t.chan ch).req = (s.chan ch).req
  lcden : t.lcd.lcden = s.lcd.lcden
  eof : t.lcd.eof = s.lcd.eof
  bs : t.lcd.bs = s.lcd.bs
  lpp : t.lcd.lpp = s.lcd.lpp
  pcd : t.lcd.pcd = s.lcd.pcd
  gpio : t.gpio = s.gpio
  intc : t.intc = s.intc
  own : t.rdata = s.rdata ∧ t.inbox = s.inbox ∧ t.draws = s.draws
  ports : t.mem.ports = s.mem.ports

end Sys2Proof.Machine
end

