-- ==== Sys2Proof/Certificates/Slice0/Obligations.lean ====
section
/-! DEFINITION. The statements about the model, for the provers. Each names the rule of spec/ it rests on; one that rests on
a rule the spec marks as derived, or on a choice of the model, says so. -/

open Sys2Proof Sys2Proof.Machine

/-- For every well-formed instruction i, whatever its index, lanes and data, decode (encode i) is i: no operand is lost.
Basis: 30_encoding.md R105 to R111, 30_encoding.md R114. -/
def Obligations.DecodeOfEncodeIsTheInstruction : Prop :=
  ∀ i : Instr, i.wellFormed = true → decode (encode i) = i

/-- For every access, encoding its decoding gives the same CMD with its two ignored offset bits 0, the same lanes, and the
same data (none on a read): the decoder drops nothing but OFF[1:0] and the DATA of a read. That a read is encoded with
DATA = 0 is the encoder's own choice (log entry 24, DESIGN CHOICE): R101 only says that DATA is ignored on a read.
That OFF[1:0] is generated as 0 is R100. Basis: 30_encoding.md R100, R101, R105. -/
def Obligations.EncodeOfDecodeIsTheAccess : Prop :=
  ∀ a : Access, encode (decode a) = ⟨a.cmd &&& 0xFFFFFFC, a.be, if a.cmd.getLsbD 27 then a.data else 0⟩

/-- Every access decodes to a well-formed instruction, a write exactly when bit 27 of CMD is 1, with the access's lanes.
Basis: 30_encoding.md R100, R105, R117. -/
def Obligations.EveryAccessDecodesToAWellFormedInstruction : Prop :=
  ∀ a : Access, (decode a).wellFormed = true ∧ (decode a).isWrite = a.cmd.getLsbD 27 ∧ (decode a).lanes = a.be

/-- No command word hits two rows of the tables of rules R106 to R110, nor a register row and an audio row. Basis:
30_encoding.md R105. -/
def Obligations.RegisterRowsAreDisjoint : Prop :=
  namedRows.Pairwise fun r q => ∀ c : Cmd, ¬(r.hits c = true ∧ q.hits c = true)

/-- An access decodes to RD.UNMAPPED or WR.UNMAPPED exactly when its word offset lies at none of the byte ranges of the
registers and of the audio range, written as numbers; so an unassigned offset inside a range is unmapped too. Basis:
30_encoding.md R105 to R111, R117, 20_memory.md R81, R89. -/
def Obligations.UnmappedExactlyWhereNothingAnswers : Prop :=
  ∀ a : Access,
    ((∃ off be, decode a = .rdUnmapped off be) ∨ ∃ off be d, decode a = .wrUnmapped off be d) ↔
      mappedOffset (4 * (a.cmd.extractLsb' 2 25).toNat) = false

/-- The command word of a read is the byte offset of rules R106 to R111 and that of a write is the same plus 0x8000000,
for every register and every index, the audio words among them. Basis: 30_encoding.md R106 to R111. -/
def Obligations.EncodedCommandsAreTheRegisterMap : Prop :=
  ∀ (be : Lanes) (d : Word) (ch : Channel) (i : Slot) (n : LcdCh) (b : Bank) (k : Fin 32),
    (∀ r w : Instr, ∀ off : Nat,
      (r, w, off) ∈ [(.rdDcsr ch be, .wrDcsr ch be d, 0x0000000 + 4 * ch.val), (.rdDint be, .wrDint be d, 0x00000F0),
        (.rdDdadr ch be, .wrDdadr ch be d, 0x0000200 + 16 * ch.val),
        (.rdDsadr ch be, .wrDsadr ch be d, 0x0000204 + 16 * ch.val),
        (.rdDtadr ch be, .wrDtadr ch be d, 0x0000208 + 16 * ch.val),
        (.rdDcmd ch be, .wrDcmd ch be d, 0x000020C + 16 * ch.val),
        (.rdOsmr i be, .wrOsmr i be d, 0x0A00000 + 4 * i.val), (.rdOscr be, .wrOscr be d, 0x0A00010),
        (.rdOssr be, .wrOssr be d, 0x0A00014), (.rdOier be, .wrOier be d, 0x0A0001C),
        (.rdIcip be, .wrIcip be d, 0x0D00000), (.rdIcmr be, .wrIcmr be d, 0x0D00004),
        (.rdIclr be, .wrIclr be d, 0x0D00008), (.rdIcfp be, .wrIcfp be d, 0x0D0000C),
        (.rdIcpr be, .wrIcpr be d, 0x0D00010),
        (.rdLccr0 be, .wrLccr0 be d, 0x4000000), (.rdLccr2 be, .wrLccr2 be d, 0x4000008),
        (.rdLccr3 be, .wrLccr3 be d, 0x400000C), (.rdLcsr be, .wrLcsr be d, 0x4000038),
        (.rdFdadr n be, .wrFdadr n be d, 0x4000200 + 16 * n.val), (.rdFsadr n be, .wrFsadr n be d, 0x4000204 + 16 * n.val),
        (.rdFidr n be, .wrFidr n be d, 0x4000208 + 16 * n.val), (.rdLdcmd n be, .wrLdcmd n be d, 0x400020C + 16 * n.val),
        (rdGplr b be, wrGplr b be d, 0x0E00000 + 4 * b.val), (rdGpdr b be, wrGpdr b be d, 0x0E0000C + 4 * b.val),
        (rdGpsr b be, wrGpsr b be d, 0x0E00018 + 4 * b.val), (rdGpcr b be, wrGpcr b be d, 0x0E00024 + 4 * b.val),
        (rdGrer b be, wrGrer b be d, 0x0E00030 + 4 * b.val), (rdGfer b be, wrGfer b be d, 0x0E0003C + 4 * b.val),
        (rdGedr b be, wrGedr b be d, 0x0E00048 + 4 * b.val),
        (.rdAudio k be, .wrAudio k be d, 0x0400000 + 4 * k.val), (.rdAudioTop be, .wrAudioTop be d, 0x0400080)] →
      ((encode r).cmd.toNat = off ∧ (encode w).cmd.toNat = 0x8000000 + off))

/-- Each of the twenty command words of vectors V1 to V20 of 95_test_vectors.md decodes to the instruction the vector
names, and so do a read of ICMR and a write of ICLR, whose words are those of the register map (R108). Basis:
95_test_vectors.md V1 to V20, 30_encoding.md R105, R108. -/
def Obligations.SampleWordsDecode : Prop :=
  ∀ (be : Lanes) (d : Word),
    decode ⟨0x0000014, be, d⟩ = .rdDcsr 5 be ∧ decode ⟨0x8000014, be, d⟩ = .wrDcsr 5 be d ∧
    decode ⟨0x0000017, be, d⟩ = .rdDcsr 5 be ∧ decode ⟨0x00000F0, be, d⟩ = .rdDint be ∧
    decode ⟨0x000023C, be, d⟩ = .rdDcmd 3 be ∧ decode ⟨0x80002F8, be, d⟩ = .wrDtadr 15 be d ∧
    decode ⟨0x0000040, be, d⟩ = .rdUnmapped 0x10 be ∧ decode ⟨0x0000100, be, d⟩ = .rdUnmapped 0x40 be ∧
    decode ⟨0x0A0000C, be, d⟩ = .rdOsmr 3 be ∧ decode ⟨0x0A00018, be, d⟩ = .rdUnmapped 0x280006 be ∧
    decode ⟨0x0A00020, be, d⟩ = .rdUnmapped 0x280008 be ∧ decode ⟨0x8D00014, be, d⟩ = .wrUnmapped 0x340005 be d ∧
    decode ⟨0x0E00050, be, d⟩ = .rdGedr2 be ∧ decode ⟨0x0E00054, be, d⟩ = .rdUnmapped 0x380015 be ∧
    decode ⟨0x4000004, be, d⟩ = .rdUnmapped 0x1000001 be ∧ decode ⟨0x400021C, be, d⟩ = .rdLdcmd 1 be ∧
    decode ⟨0x4000220, be, d⟩ = .rdUnmapped 0x1000088 be ∧ decode ⟨0x7FFFFFC, be, d⟩ = .rdUnmapped 0x1FFFFFF be ∧
    decode ⟨0x0400000, be, d⟩ = .rdAudio 0 be ∧ decode ⟨0x0400084, be, d⟩ = .rdUnmapped 0x100021 be ∧
    decode ⟨0x0D00004, be, d⟩ = .rdIcmr be ∧ decode ⟨0x8D00008, be, d⟩ = .wrIclr be d

/-- When the next stimulus is an access that decodes to the well-formed instruction i, step is exec of i on the state with
that stimulus taken out. (The list of stimuli is the model's own form of the environment's choice: log entry 1.)
Basis: 40_dispatcher.md R130. -/
def Obligations.StepRunsTheDecodedAccess : Prop :=
  ∀ (s : State) (a : Access) (rest : List Stimulus) (i : Instr),
    s.inbox = .access a :: rest → decode a = i → i.wellFormed = true → step s = exec i { s with inbox := rest }

/-- A step takes the first stimulus out and applies it: Tick, Pin within its precondition, Reset, or the environment's own
change of memory: the bytes it writes are at the addresses from a upward modulo 2^32 (where two fall on one address
the later one), every other byte of plain memory is as before, and nothing else moves; or its decision of what lies
behind the addresses, which sets the ports and the answers and moves nothing else. With no stimulus waiting the state
stays. The list of stimuli and the form of the memory image are the model's own (log entries 1, 9, 10 and 11). Basis:
00_scope.md R12, 40_dispatcher.md R138, 45_gpio.md R315, 70_reset_and_hazards.md R360, 20_memory.md R71, R72, R88,
30_encoding.md R120. -/
def Obligations.StepAppliesEveryOtherStimulus : Prop :=
  ∀ (s : State) (rest : List Stimulus),
    (s.inbox = .tick :: rest → step s = .next (tickStep { s with inbox := rest })) ∧
    (s.inbox = .reset :: rest → step s = .next (resetStep { s with inbox := rest })) ∧
    (∀ (b : Bank) (p : Nat) (level : Bool), p < 32 → s.inbox = .pin b.val p level.toNat :: rest →
      step s = .next (pinStep b p level { s with inbox := rest })) ∧
    (∀ (a : Word) (bytes : List Byte), s.inbox = .mem a bytes :: rest →
      ∃ m : Image, step s = .next { s with inbox := rest, mem := m } ∧
        (∀ k v, bytes[k]? = some v →
          (∀ j, k < j → j < bytes.length → a + BitVec.ofNat 32 j ≠ a + BitVec.ofNat 32 k) →
          plainByte m (a + BitVec.ofNat 32 k) = v) ∧
        (∀ x : Word, (∀ k, k < bytes.length → x ≠ a + BitVec.ofNat 32 k) → plainByte m x = plainByte s.mem x) ∧
        m.ports = s.mem.ports ∧ m.answers = s.mem.answers ∧ m.log = s.mem.log) ∧
    (∀ (ranges : List PortRange) (answers : List Byte), s.inbox = .ports ranges answers :: rest →
      step s = .next { s with inbox := rest, mem := { s.mem with ports := ranges, answers := answers } }) ∧
    (s.inbox = [] → step s = .next s)

/-- For every instruction, with every operand and in every state, exec answers a next state. Basis: 60_exceptions.md R330,
30_encoding.md R117. -/
def Obligations.EveryInstructionCompletes : Prop :=
  ∀ (i : Instr) (s : State), ∃ t, exec i s = .next t

/-- A step answers a next state unless the next stimulus is a Pin with a bank above 2, a pin above 31 or a level that is
neither 0 nor 1; that one is refused by its own name (93_implementation_defined.md U16). Basis: 45_gpio.md R315,
60_exceptions.md R330, 93_implementation_defined.md U16. -/
def Obligations.OnlyAPinOutsideItsPreconditionStops : Prop :=
  ∀ s : State,
    (∀ b p level rest, s.inbox = .pin b p level :: rest → (3 ≤ b ∨ 32 ≤ p ∨ 2 ≤ level) →
      step s = .refused (.pinOutsidePrecondition b p level)) ∧
    ((∀ b p level rest, s.inbox = .pin b p level :: rest → b < 3 ∧ p < 32 ∧ level < 2) → ∃ t, step s = .next t)

/-- State.reset meets every clause of the invariant: no event pending, ICPR and both lines recomputed, reserved bits 0,
empty framebuffers, canonical memory. The spec marks R65 as derived, and the memory clause is the model's own. Basis:
10_state.md R65. -/
def Obligations.ResetMeetsTheInvariant : Prop :=
  Inv State.reset

/-- From every state that meets the invariant, whatever the environment applies, a step leads to a state that meets it.
The spec marks R65 as derived, and the memory clause is the model's own (log entry 9). Basis: 10_state.md R65. -/
def Obligations.EveryStepKeepsTheInvariant : Prop :=
  ∀ s t : State, Inv s → step s = .next t → Inv t

/-- A read access returns some word and changes no state element, and two read accesses that differ only in BE and DATA do
the same, BE = 0000 included; a write access with BE = 0000 leaves every state element as it is. R133 says this of BE
= 0000; that reads agree under every BE rests on R136 (log entry 19, DEDUCED), that they change nothing on R23, that
DATA does not matter on R101, and that BE = 0000 runs as a no-op, where the spec lets a model refuse it, is log entry
16 (DESIGN CHOICE). The returned word and the draw number are the model's own (log entries 3 and 4). Basis:
40_dispatcher.md R133, R136, 10_state.md R23, 30_encoding.md R101. -/
def Obligations.LanesDoNotMatterToAReadAndNoLaneStopsAWrite : Prop :=
  ∀ (a : Access) (s : State),
    (a.cmd.getLsbD 27 = false →
      (∃ (v : Word) (n : Nat), exec (decode a) s = .next { s with rdata := some v, draws := n }) ∧
      ∀ (be : Lanes) (d : Word), exec (decode ⟨a.cmd, be, d⟩) s = exec (decode a) s) ∧
    (a.cmd.getLsbD 27 = true → a.be = 0 → exec (decode a) s = .next { s with rdata := none })

/-- No access writes the memory image: after any access every byte of plain memory is as before and what has reached a
port is reads, and only the two writes that can load a descriptor, WR.DCSR and WR.LCCR0, read it at all; OSCR is
unchanged unless the access writes OSCR, and the countdown of every channel that was pending and stays pending is
unchanged. What a port is, is the model's form of the environment (log entry 11). Basis: 40_dispatcher.md R141,
20_memory.md R72. -/
def Obligations.AccessesTakeNoTimeAndLeaveMemory : Prop :=
  ∀ (i : Instr) (s t : State), exec i s = .next t →
    OnlyRead s.mem t.mem ∧
    ((∀ ch be d, i ≠ .wrDcsr ch be d) → (∀ be d, i ≠ .wrLccr0 be d) → SameMem s t) ∧
    ((∀ be d, i ≠ .wrOscr be d) → t.timer.oscr = s.timer.oscr) ∧
    (∀ ch : Channel, (s.chan ch).run = true → (t.chan ch).run = true → (t.chan ch).drem = (s.chan ch).drem) ∧
    ∀ n : LcdCh, s.lcd.lcden.getLsbD n = true → t.lcd.lcden.getLsbD n = true → (t.lcdChan n).lrem = (s.lcdChan n).lrem

/-- After any access every latched flag that is 1 was 1 before: OSSR, IRQP, END, BUSERR, EOF, BS and GEDR are set by
hardware only. Basis: 10_state.md R24. -/
def Obligations.AccessesNeverSetALatchedFlag : Prop :=
  ∀ (i : Instr) (s t : State), exec i s = .next t →
    (∀ k, t.timer.ossr.getLsbD k = true → s.timer.ossr.getLsbD k = true) ∧
    (∀ k, t.dma.irqp.getLsbD k = true → s.dma.irqp.getLsbD k = true) ∧
    (∀ ch : Channel, (t.chan ch).endFlag = true → (s.chan ch).endFlag = true) ∧
    (∀ ch : Channel, (t.chan ch).busErr = true → (s.chan ch).busErr = true) ∧
    (∀ k, t.lcd.eof.getLsbD k = true → s.lcd.eof.getLsbD k = true) ∧
    (∀ k, t.lcd.bs.getLsbD k = true → s.lcd.bs.getLsbD k = true) ∧
    ∀ (b : Bank) (k : Nat), (t.bank b).gedr.getLsbD k = true → (s.bank b).gedr.getLsbD k = true

/-- Whatever the environment applies, a step keeps every entry of the output trace in its place, a reset included, and a
bus-error flag that is 1 after the step was 1 before it. Basis: 10_state.md R62, 10_state.md R31. -/
def Obligations.NoStepErasesTheTraceOrRaisesBusErr : Prop :=
  ∀ s t : State, step s = .next t →
    (∃ l, t.trace = s.trace ++ l) ∧ ∀ ch : Channel, (t.chan ch).busErr = true → (s.chan ch).busErr = true

/-- Each DMA read answers a next state that differs only in the returned word: DCSR with RUN, EN, PAUSE, REQ, END, BUSERR
at their bits and 0 elsewhere, DINT with bit ch = IRQP[ch], the working registers as held. Basis: R150, R152, R154,
R156, R158, R160. -/
def Obligations.DmaReadsReturnTheRegisters : Prop :=
  ∀ (s : State) (ch : Channel) (be : Lanes),
    (∃ v : Word, Reads (.rdDcsr ch be) s v ∧ v.getLsbD 31 = (s.chan ch).run ∧ v.getLsbD 30 = (s.chan ch).en ∧
      v.getLsbD 29 = (s.chan ch).pause ∧ (∀ k, k < 6 → v.getLsbD (8 + k) = (s.chan ch).req.getLsbD k) ∧
      v.getLsbD 2 = (s.chan ch).endFlag ∧ v.getLsbD 0 = (s.chan ch).busErr ∧
      ∀ k, k = 1 ∨ (3 ≤ k ∧ k ≤ 7) ∨ (14 ≤ k ∧ k ≤ 28) → v.getLsbD k = false) ∧
    (∃ v : Word, Reads (.rdDint be) s v ∧ ∀ k, v.getLsbD k = s.dma.irqp.getLsbD k) ∧
    Reads (.rdDdadr ch be) s (s.chan ch).ddadr ∧ Reads (.rdDsadr ch be) s (s.chan ch).dsadr ∧
    Reads (.rdDtadr ch be) s (s.chan ch).dtadr ∧ Reads (.rdDcmd ch be) s (s.chan ch).dcmd

/-- Each timer read answers a next state that differs only in the returned word; OSSR and OIER read their four bits, zero-
extended. Basis: R200, R202, R204, R206. -/
def Obligations.TimerReadsReturnTheRegisters : Prop :=
  ∀ (s : State) (i : Slot) (be : Lanes),
    Reads (.rdOsmr i be) s s.timer.osmr[i] ∧ Reads (.rdOscr be) s s.timer.oscr ∧
    (∃ v : Word, Reads (.rdOssr be) s v ∧ ∀ k, v.getLsbD k = s.timer.ossr.getLsbD k) ∧
    ∃ v : Word, Reads (.rdOier be) s v ∧ ∀ k, v.getLsbD k = s.timer.oier.getLsbD k

/-- ICIP reads bit k exactly when source k is pending, unmasked and routed to the normal line, ICFP when it is routed to
the fast line; ICMR, ICLR and ICPR read as held; nothing changes. Basis: R230, R232, R237, R239, R241. -/
def Obligations.IntcReadsReturnTheRegistersAndViews : Prop :=
  ∀ (s : State) (be : Lanes),
    (∃ v : Word, Reads (.rdIcip be) s v ∧
      ∀ k, k < 32 → v.getLsbD k = (s.intc.icpr.getLsbD k && s.intc.icmr.getLsbD k && !s.intc.iclr.getLsbD k)) ∧
    Reads (.rdIcmr be) s s.intc.icmr ∧ Reads (.rdIclr be) s s.intc.iclr ∧
    (∃ v : Word, Reads (.rdIcfp be) s v ∧
      ∀ k, k < 32 → v.getLsbD k = (s.intc.icpr.getLsbD k && s.intc.icmr.getLsbD k && s.intc.iclr.getLsbD k)) ∧
    Reads (.rdIcpr be) s s.intc.icpr

/-- RD.LCCR0, RD.LCCR2, RD.LCCR3 and RD.LCSR return their fields at their bits and 0 elsewhere; RD.FDADR, RD.FSADR,
RD.FIDR and RD.LDCMD return the working registers of channel n; nothing changes. Basis: R250, R252, R254, R256, R258,
R270, R272, R274. -/
def Obligations.LcdReadsReturnTheRegisters : Prop :=
  ∀ (s : State) (n : LcdCh) (be : Lanes),
    (∃ v : Word, Reads (.rdLccr0 be) s v ∧ ∀ k, v.getLsbD k = s.lcd.lcden.getLsbD k) ∧
    (∃ v : Word, Reads (.rdLccr2 be) s v ∧ ∀ k, v.getLsbD k = s.lcd.lpp.getLsbD k) ∧
    (∃ v : Word, Reads (.rdLccr3 be) s v ∧ ∀ k, v.getLsbD k = s.lcd.pcd.getLsbD k) ∧
    (∃ v : Word, Reads (.rdLcsr be) s v ∧ v.getLsbD 0 = s.lcd.eof.getLsbD 0 ∧ v.getLsbD 1 = s.lcd.eof.getLsbD 1 ∧
      v.getLsbD 4 = s.lcd.bs.getLsbD 0 ∧ v.getLsbD 5 = s.lcd.bs.getLsbD 1 ∧
      ∀ k, k = 2 ∨ k = 3 ∨ 6 ≤ k → v.getLsbD k = false) ∧
    Reads (.rdFdadr n be) s (s.lcdChan n).fdadr ∧ Reads (.rdFsadr n be) s (s.lcdChan n).fsadr ∧
    Reads (.rdFidr n be) s (s.lcdChan n).fidr ∧ Reads (.rdLdcmd n be) s (s.lcdChan n).ldcmd

/-- RD.GPLR of a bank reads the output latch on output pins and the last reported level on input pins; RD.GPDR, RD.GRER,
RD.GFER and RD.GEDR read as held; RD.GPSR and RD.GPCR read 0; nothing changes (constructors rdGplr0 to rdGplr2,
rdGpdr0 to rdGpdr2, rdGpsr0 to rdGpsr2, rdGpcr0 to rdGpcr2, rdGrer0 to rdGrer2, rdGfer0 to rdGfer2, rdGedr0 to
rdGedr2). Basis: R300, R302, R304, R306, R308, R310, R312. -/
def Obligations.GpioReadsReturnTheRegistersAndLevels : Prop :=
  ∀ (s : State) (b : Bank) (be : Lanes),
    (∃ v : Word, Reads (rdGplr b be) s v ∧ ∀ k, k < 32 →
      v.getLsbD k = if (s.bank b).gpdir.getLsbD k then (s.bank b).gpout.getLsbD k else (s.bank b).gpin.getLsbD k) ∧
    Reads (rdGpdr b be) s (s.bank b).gpdir ∧ Reads (rdGpsr b be) s 0 ∧ Reads (rdGpcr b be) s 0 ∧
    Reads (rdGrer b be) s (s.bank b).grer ∧ Reads (rdGfer b be) s (s.bank b).gfer ∧
    Reads (rdGedr b be) s (s.bank b).gedr

/-- RD.UNMAPPED returns 0 and changes nothing. RD.AUDIO of word k (both of its rows) returns the free value AUDIO_READ of
its byte offset and changes nothing but the model's own draw number, whatever that free value is. The form of that
value, a constant applied to the draw number and the offset, and the advance of the draw number are the model's choice
(log entry 4, DESIGN CHOICE): R134 says only that it is any word and may differ from read to read. Basis:
40_dispatcher.md R131, R134. -/
def Obligations.UnmappedAndAudioReads : Prop :=
  ∀ (s : State) (be : Lanes) (off : BitVec 25) (k : Fin 32),
    Reads (.rdUnmapped off be) s 0 ∧
    exec (.rdAudio k be) s = .next { s with
      rdata := some (Config.audioRead s.draws (BitVec.ofNat 27 (0x0400000 + 4 * k.val))), draws := s.draws + 1 } ∧
    exec (.rdAudioTop be) s = .next { s with
      rdata := some (Config.audioRead s.draws 0x0400080), draws := s.draws + 1 }

/-- Each of the four writes completes for every lane mask, takes the writable bits of the enabled lanes (all 32, or
0xF0A31FFF for DCMD) and leaves every other register, flag, countdown and byte of memory as it was; with a lane
enabled the interrupt controller is settled. Basis: R155, R157, R159, R161. -/
def Obligations.DmaWorkingRegisterWritesOnlyStore : Prop :=
  ∀ (ch : Channel) (be : Lanes) (d : Word) (s : State),
    (∃ t, exec (.wrDdadr ch be d) s = .next t ∧ Merged (s.chan ch).ddadr (t.chan ch).ddadr d 0xFFFFFFFF be ∧
      t.chan ch = { s.chan ch with ddadr := (t.chan ch).ddadr } ∧ OnlyChannel ch be s s.mem t) ∧
    (∃ t, exec (.wrDsadr ch be d) s = .next t ∧ Merged (s.chan ch).dsadr (t.chan ch).dsadr d 0xFFFFFFFF be ∧
      t.chan ch = { s.chan ch with dsadr := (t.chan ch).dsadr } ∧ OnlyChannel ch be s s.mem t) ∧
    (∃ t, exec (.wrDtadr ch be d) s = .next t ∧ Merged (s.chan ch).dtadr (t.chan ch).dtadr d 0xFFFFFFFF be ∧
      t.chan ch = { s.chan ch with dtadr := (t.chan ch).dtadr } ∧ OnlyChannel ch be s s.mem t) ∧
    (∃ t, exec (.wrDcmd ch be d) s = .next t ∧ Merged (s.chan ch).dcmd (t.chan ch).dcmd d 0xF0A31FFF be ∧
      t.chan ch = { s.chan ch with dcmd := (t.chan ch).dcmd } ∧ OnlyChannel ch be s s.mem t)

/-- WR.DCSR completes for every lane mask: RUN, EN, PAUSE and REQ take their enabled lanes, END and BUSERR are cleared by
a written 1, and exactly when RUN goes from 0 to 1 the channel loads the descriptor at its chain-link address and
schedules its completion; in every other case, an abort included, the working registers and the countdown keep their
values. No other register or flag changes, and the memory image is the one before, from which the start has read the
sixteen bytes of the descriptor. The image as reads find it, ports and their answers among it, is the model's form of
the accessors MemRead and MemWrite (log entry 11). Basis: 41_dma.md R151, R163, R164, R167, 20_memory.md R71, R73. -/
def Obligations.DcsrWriteStoresClearsAndStarts : Prop :=
  ∀ (ch : Channel) (be : Lanes) (d : Word) (s : State), ∃ t, exec (.wrDcsr ch be d) s = .next t ∧
    (t.chan ch).run = (if be.getLsbD 3 then d.getLsbD 31 else (s.chan ch).run) ∧
    (t.chan ch).en = (if be.getLsbD 3 then d.getLsbD 30 else (s.chan ch).en) ∧
    (t.chan ch).pause = (if be.getLsbD 3 then d.getLsbD 29 else (s.chan ch).pause) ∧
    (∀ k, k < 6 →
      (t.chan ch).req.getLsbD k = if be.getLsbD 1 then d.getLsbD (8 + k) else (s.chan ch).req.getLsbD k) ∧
    (t.chan ch).endFlag = ((s.chan ch).endFlag && !(be.getLsbD 0 && d.getLsbD 2)) ∧
    (t.chan ch).busErr = ((s.chan ch).busErr && !(be.getLsbD 0 && d.getLsbD 0)) ∧
    (if (s.chan ch).run = false ∧ (t.chan ch).run = true then ChannelLoaded s.mem (s.chan ch).ddadr (t.chan ch)
      else SameWorking (s.chan ch) (t.chan ch)) ∧
    OnlyChannel ch be s (if (s.chan ch).run = false ∧ (t.chan ch).run = true then runImage 16 (s.chan ch).ddadr s.mem
      else s.mem) t

/-- WR.DINT completes for every lane mask: IRQP[ch] falls exactly when bit ch of the enabled data is 1; END and every
other register, and memory, keep their values. Basis: R153. -/
def Obligations.DintWriteClearsWrittenBits : Prop :=
  ∀ (be : Lanes) (d : Word) (s : State), ∃ t, exec (.wrDint be d) s = .next t ∧
    (∀ ch : Channel,
      t.dma.irqp.getLsbD ch = (s.dma.irqp.getLsbD ch && !(laneOn be ch && d.getLsbD ch))) ∧
    t.dma.chan = s.dma.chan ∧ t.timer = s.timer ∧ t.lcd = s.lcd ∧ t.gpio = s.gpio ∧ t.trace = s.trace ∧ SameMem s t ∧
    OwnAfterWrite s t ∧ IntcFollows be s t

/-- DmaFire of a running channel performs the copy, sets END, sets IRQP[ch] exactly when ENDIRQEN of the completed command
is 1, and clears RUN when STOP was 1 or else loads the next descriptor from the memory after the copy; of a channel
that is not running it does nothing. It touches no other channel, no other raw-pending bit, and no register outside
the DMA Engine. DmaCopyIsTheForwardByteLoop says what the copy does. The image as reads find it, ports and their
answers among it, is the model's form of the accessors MemRead and MemWrite (log entry 11). Basis: 41_dma.md R165,
R168, 20_memory.md R71, R73. -/
def Obligations.DmaCompletionEffect : Prop :=
  ∀ (s : State) (ch : Channel),
    ((s.chan ch).run = false → dmaFire ch s = s) ∧
    ((s.chan ch).run = true →
      ((dmaFire ch s).chan ch).endFlag = true ∧
      ((dmaFire ch s).chan ch).run = !(s.chan ch).dcmd.getLsbD 23 ∧
      (∀ c : Channel, (dmaFire ch s).dma.irqp.getLsbD c =
        (s.dma.irqp.getLsbD c || (decide (c = ch) && (s.chan ch).dcmd.getLsbD 21))) ∧
      (dmaFire ch s).mem = (if (s.chan ch).dcmd.getLsbD 23 then (dmaCopy ch s).mem
        else runImage 16 (s.chan ch).ddadr (dmaCopy ch s).mem) ∧
      ((s.chan ch).dcmd.getLsbD 23 = true → SameWorking (s.chan ch) ((dmaFire ch s).chan ch)) ∧
      ((s.chan ch).dcmd.getLsbD 23 = false →
        ChannelLoaded (dmaCopy ch s).mem (s.chan ch).ddadr ((dmaFire ch s).chan ch)) ∧
      ((dmaFire ch s).chan ch).en = (s.chan ch).en ∧ ((dmaFire ch s).chan ch).pause = (s.chan ch).pause ∧
      ((dmaFire ch s).chan ch).req = (s.chan ch).req ∧ ((dmaFire ch s).chan ch).busErr = (s.chan ch).busErr ∧
      (∀ c : Channel, c ≠ ch → (dmaFire ch s).chan c = s.chan c) ∧
      (dmaFire ch s).timer = s.timer ∧ (dmaFire ch s).lcd = s.lcd ∧ (dmaFire ch s).trace = s.trace ∧
      EventFrame s (dmaFire ch s))

/-- There is a sequence of memory images from the one before the copy to the one after it, one per byte: move k reads one
byte at source address k from image k and then writes it at target address k. On plain memory the move changes exactly
the byte at target address k, to what the image before it holds at source address k; LEN = 0 moves nothing. DmaCopy
changes nothing but the memory image: DSADR, DTADR and DCMD are not modified. The image as reads find it, ports and
their answers among it, is the model's form of the accessors MemRead and MemWrite (log entry 11). Basis: 41_dma.md
R166, 20_memory.md R71, R83. -/
def Obligations.DmaCopyIsTheForwardByteLoop : Prop :=
  ∀ (s : State) (ch : Channel), ∃ ms : Nat → Image,
    ms 0 = s.mem ∧ ms ((s.chan ch).dcmd.extractLsb' 0 13).toNat = (dmaCopy ch s).mem ∧
    dmaCopy ch s = { s with mem := (dmaCopy ch s).mem } ∧
    ∀ k, k < ((s.chan ch).dcmd.extractLsb' 0 13).toNat → ∀ src trg : Word,
      src = rangeAddr ((s.chan ch).dcmd.getLsbD 31) (s.chan ch).dsadr k →
      trg = rangeAddr ((s.chan ch).dcmd.getLsbD 30) (s.chan ch).dtadr k →
      ms (k + 1) = writeByte (afterRead (ms k) src) trg (readByte (ms k) src) ∧
      (s.mem.isPort trg = false → ∀ a : Word,
        plainByte (ms (k + 1)) a = if a = trg then readByte (ms k) src else plainByte (ms k) a)

/-- On plain memory, when source and target both increment and no source byte is a target byte, every one of the LEN
target bytes after the completion is what its source byte was before it; and, whatever the modes, the overlaps and the
ports, a byte of plain memory outside the target range is as before. Where the ports are is the environment's choice
(log entry 11). Basis: 41_dma.md R166, 20_memory.md R71. -/
def Obligations.DmaCopyMovesTheRange : Prop :=
  ∀ (s : State) (ch : Channel), (s.chan ch).run = true →
    ((s.chan ch).dcmd.getLsbD 31 = true → (s.chan ch).dcmd.getLsbD 30 = true →
      PlainRun s.mem (s.chan ch).dsadr ((s.chan ch).dcmd.extractLsb' 0 13).toNat →
      PlainRun s.mem (s.chan ch).dtadr ((s.chan ch).dcmd.extractLsb' 0 13).toNat →
      (∀ j k, j < ((s.chan ch).dcmd.extractLsb' 0 13).toNat → k < ((s.chan ch).dcmd.extractLsb' 0 13).toNat →
        (s.chan ch).dsadr + BitVec.ofNat 32 j ≠ (s.chan ch).dtadr + BitVec.ofNat 32 k) →
      ∀ k, k < ((s.chan ch).dcmd.extractLsb' 0 13).toNat →
        plainByte (dmaFire ch s).mem ((s.chan ch).dtadr + BitVec.ofNat 32 k) =
          plainByte s.mem ((s.chan ch).dsadr + BitVec.ofNat 32 k)) ∧
    ∀ a : Word,
      (∀ k, k < ((s.chan ch).dcmd.extractLsb' 0 13).toNat →
        a ≠ rangeAddr ((s.chan ch).dcmd.getLsbD 30) (s.chan ch).dtadr k) →
      plainByte (dmaFire ch s).mem a = plainByte s.mem a

/-- With a fixed source outside the incrementing target range every target byte ends as that one source byte; with a fixed
target outside the incrementing source range and LEN at least 1 the target byte ends as the last source byte; with
both fixed and LEN at least 1 the target byte ends as the source byte. All of it where source and target are plain
memory: R166 says copies of one byte of plain memory only, and which addresses are plain is the environment's choice
(log entry 11, DESIGN CHOICE of form). A port as a fixed source is PortsAreReadAndWrittenInOrder. Basis: 41_dma.md
R166, 90_conflicts.md C3, 20_memory.md R71, R79. -/
def Obligations.DmaFixedAddressModes : Prop :=
  ∀ (s : State) (ch : Channel) (len : Nat), (s.chan ch).run = true →
    len = ((s.chan ch).dcmd.extractLsb' 0 13).toNat →
    ((s.chan ch).dcmd.getLsbD 31 = false → (s.chan ch).dcmd.getLsbD 30 = true →
      s.mem.isPort (s.chan ch).dsadr = false → PlainRun s.mem (s.chan ch).dtadr len →
      (∀ k, k < len → (s.chan ch).dsadr ≠ (s.chan ch).dtadr + BitVec.ofNat 32 k) →
      ∀ k, k < len →
        plainByte (dmaFire ch s).mem ((s.chan ch).dtadr + BitVec.ofNat 32 k) = plainByte s.mem (s.chan ch).dsadr) ∧
    ((s.chan ch).dcmd.getLsbD 31 = true → (s.chan ch).dcmd.getLsbD 30 = false →
      PlainRun s.mem (s.chan ch).dsadr len → s.mem.isPort (s.chan ch).dtadr = false →
      (∀ k, k < len → (s.chan ch).dtadr ≠ (s.chan ch).dsadr + BitVec.ofNat 32 k) → 1 ≤ len →
      plainByte (dmaFire ch s).mem (s.chan ch).dtadr =
        plainByte s.mem ((s.chan ch).dsadr + BitVec.ofNat 32 (len - 1))) ∧
    ((s.chan ch).dcmd.getLsbD 31 = false → (s.chan ch).dcmd.getLsbD 30 = false →
      s.mem.isPort (s.chan ch).dsadr = false → s.mem.isPort (s.chan ch).dtadr = false → 1 ≤ len →
      plainByte (dmaFire ch s).mem (s.chan ch).dtadr = plainByte s.mem (s.chan ch).dsadr)

/-- Through any number of ticks fewer than its countdown a running channel keeps every register and only counts down,
whatever the other channels, slots and LCD channels do; in the tick that makes the countdown 0 it completes: END is
set, RUN is cleared exactly when STOP was 1, and IRQP[ch] is set when ENDIRQEN was 1. Basis: 10_state.md R37,
40_dispatcher.md R138, 41_dma.md R165. -/
def Obligations.DmaCompletionFiresExactlyOnTime : Prop :=
  ∀ (s : State) (ch : Channel), (s.chan ch).run = true → 1 ≤ (s.chan ch).drem →
    (∀ k, k < (s.chan ch).drem → (ticks k s).chan ch = { s.chan ch with drem := (s.chan ch).drem - k }) ∧
    ((ticks (s.chan ch).drem s).chan ch).endFlag = true ∧
    ((ticks (s.chan ch).drem s).chan ch).run = !(s.chan ch).dcmd.getLsbD 23 ∧
    ((s.chan ch).dcmd.getLsbD 21 = true → (ticks (s.chan ch).drem s).dma.irqp.getLsbD ch = true)

/-- A DMA channel with RUN = 0 keeps every register, and its IRQP bit, through any number of ticks, and so does an LCD
channel with LCDEN = 0 with its EOF and BS bits: an aborted event never fires. With no DMA channel running no byte of
plain memory changes and no port is written, and with no LCD channel enabled either the memory image is not touched.
Basis: 41_dma.md R167, R168, 44_lcd.md R263, R276. -/
def Obligations.IdleChannelsStayStill : Prop :=
  ∀ (s : State) (k : Nat),
    (∀ ch : Channel, (s.chan ch).run = false →
      (ticks k s).chan ch = s.chan ch ∧ (ticks k s).dma.irqp.getLsbD ch = s.dma.irqp.getLsbD ch) ∧
    (∀ n : LcdCh, s.lcd.lcden.getLsbD n = false →
      (ticks k s).lcdChan n = s.lcdChan n ∧ (ticks k s).lcd.lcden.getLsbD n = false ∧
      (ticks k s).lcd.eof.getLsbD n = s.lcd.eof.getLsbD n ∧ (ticks k s).lcd.bs.getLsbD n = s.lcd.bs.getLsbD n) ∧
    ((∀ ch : Channel, (s.chan ch).run = false) → OnlyRead s.mem (ticks k s).mem) ∧
    ((∀ ch : Channel, (s.chan ch).run = false) → s.lcd.lcden = 0 → SameMem s (ticks k s))

/-- WR.OSMR completes for every lane mask: OSMR[i] takes the enabled lanes, ARMED[i] becomes 1 when a lane is enabled, and
no other match value, flag, enable, register or byte of memory changes; OSCR and OSSR stay. Basis: R201. -/
def Obligations.OsmrWriteStoresAndArms : Prop :=
  ∀ (i : Slot) (be : Lanes) (d : Word) (s : State), ∃ t, exec (.wrOsmr i be d) s = .next t ∧
    Merged s.timer.osmr[i] t.timer.osmr[i] d 0xFFFFFFFF be ∧
    (∀ j : Slot, j ≠ i → t.timer.osmr[j] = s.timer.osmr[j]) ∧
    (∀ j : Slot, t.timer.armed.getLsbD j = (s.timer.armed.getLsbD j || (decide (j = i) && decide (be ≠ 0)))) ∧
    t.timer.oscr = s.timer.oscr ∧ t.timer.ossr = s.timer.ossr ∧ t.timer.oier = s.timer.oier ∧ OnlyTimer be s t

/-- WR.OSCR completes for every lane mask: OSCR takes the enabled lanes, all four slots are armed when a lane is enabled,
and nothing else changes. Basis: R203. -/
def Obligations.OscrWriteStoresAndArmsAllSlots : Prop :=
  ∀ (be : Lanes) (d : Word) (s : State), ∃ t, exec (.wrOscr be d) s = .next t ∧
    Merged s.timer.oscr t.timer.oscr d 0xFFFFFFFF be ∧
    (∀ j : Slot, t.timer.armed.getLsbD j = (s.timer.armed.getLsbD j || decide (be ≠ 0))) ∧
    t.timer.osmr = s.timer.osmr ∧ t.timer.ossr = s.timer.ossr ∧ t.timer.oier = s.timer.oier ∧ OnlyTimer be s t

/-- WR.OSSR clears exactly the status bits written 1 in lane 0; WR.OIER takes bits 3:0 of lane 0; both complete for every
lane mask and neither changes OSMR, OSCR, ARMED, the other register, or anything outside the timer but the settled
interrupt controller. Basis: R205, R207. -/
def Obligations.OssrWriteClearsAndOierWriteStores : Prop :=
  ∀ (be : Lanes) (d : Word) (s : State),
    (∃ t, exec (.wrOssr be d) s = .next t ∧
      (∀ i : Slot, t.timer.ossr.getLsbD i = (s.timer.ossr.getLsbD i && !(be.getLsbD 0 && d.getLsbD i))) ∧
      t.timer = { s.timer with ossr := t.timer.ossr } ∧ OnlyTimer be s t) ∧
    (∃ t, exec (.wrOier be d) s = .next t ∧
      (∀ i : Slot, t.timer.oier.getLsbD i = if be.getLsbD 0 then d.getLsbD i else s.timer.oier.getLsbD i) ∧
      t.timer = { s.timer with oier := t.timer.oier } ∧ OnlyTimer be s t)

/-- After a tick OSCR is one more modulo 2^32; slot i has fired (OSSR[i] = 1, ARMED[i] = 0) exactly when it was armed and
the incremented counter equals OSMR[i], whatever its interrupt enable; every other status and armed bit, OSMR and OIER
stay. Basis: 42_timer.md R210, R212, 40_dispatcher.md R138. -/
def Obligations.TickCountsAndFiresMatchingSlots : Prop :=
  ∀ s : State,
    (tickStep s).timer.oscr = s.timer.oscr + 1 ∧ (tickStep s).timer.osmr = s.timer.osmr ∧
    (tickStep s).timer.oier = s.timer.oier ∧
    ∀ i : Slot,
      (tickStep s).timer.ossr.getLsbD i =
        (s.timer.ossr.getLsbD i || (s.timer.armed.getLsbD i && decide (s.timer.oscr + 1 = s.timer.osmr[i]))) ∧
      (tickStep s).timer.armed.getLsbD i =
        (s.timer.armed.getLsbD i && !decide (s.timer.oscr + 1 = s.timer.osmr[i]))

/-- Let slot i be armed with counter c and match value m, and let only ticks follow: it fires in exactly the d-th tick, d
= (m - c) mod 2^32, or 2^32 when m = c, and in no earlier one. A slot that is not armed keeps its status bit through
any number of ticks. The spec marks R213 as derived. Basis: 42_timer.md R211, R212, R213. -/
def Obligations.SlotFiresExactlyOnTimeAndOnce : Prop :=
  ∀ (s : State) (i : Slot),
    (s.timer.armed.getLsbD i = true → ∀ d : Nat,
      d = (if s.timer.osmr[i] = s.timer.oscr then 2 ^ 32 else (s.timer.osmr[i] - s.timer.oscr).toNat) →
      (∀ k, k < d → (ticks k s).timer.ossr.getLsbD i = s.timer.ossr.getLsbD i ∧
        (ticks k s).timer.armed.getLsbD i = true) ∧
      (ticks d s).timer.ossr.getLsbD i = true ∧ (ticks d s).timer.armed.getLsbD i = false) ∧
    (s.timer.armed.getLsbD i = false → ∀ k, (ticks k s).timer.ossr.getLsbD i = s.timer.ossr.getLsbD i ∧
      (ticks k s).timer.armed.getLsbD i = false)

/-- With slot i armed d ticks ahead, its status clear, its interrupt enabled, unmasked and routed to the normal line, and
only ticks following: before tick d (before the first tick too, if the interrupt controller is settled there) source
bit 26 + i is 0, and irq_line is 1 only while some other source is pending, unmasked and routed to the normal line;
after tick d the bit is 1 and irq_line is 1. The spec marks R217 as derived. Basis: 42_timer.md R215, R217, 43_intc.md
R235. -/
def Obligations.LineRisesExactlyAtTheMatch : Prop :=
  ∀ (s : State) (i : Slot) (d : Nat),
    s.timer.armed.getLsbD i = true → s.timer.ossr.getLsbD i = false → s.timer.oier.getLsbD i = true →
    s.intc.icmr.getLsbD (26 + i.val) = true → s.intc.iclr.getLsbD (26 + i.val) = false →
    d = (if s.timer.osmr[i] = s.timer.oscr then 2 ^ 32 else (s.timer.osmr[i] - s.timer.oscr).toNat) →
    (∀ k, k < d → (k = 0 → Settled s) →
      (ticks k s).intc.icpr.getLsbD (26 + i.val) = false ∧
      ((ticks k s).intc.irqLine = true → ∃ j, j ≠ 26 + i.val ∧ (ticks k s).intc.icpr.getLsbD j = true ∧
        (ticks k s).intc.icmr.getLsbD j = true ∧ (ticks k s).intc.iclr.getLsbD j = false)) ∧
    (ticks d s).intc.icpr.getLsbD (26 + i.val) = true ∧ (ticks d s).intc.irqLine = true

/-- Each write completes for every lane mask, takes the enabled lanes, leaves the other register and every other unit and
byte of memory, and with a lane enabled ends with ICPR at its sources and both lines at the new mask and routing.
Basis: R233, R238. -/
def Obligations.MaskAndRoutingWritesStoreAndSettle : Prop :=
  ∀ (be : Lanes) (d : Word) (s : State),
    (∃ t, exec (.wrIcmr be d) s = .next t ∧ Merged s.intc.icmr t.intc.icmr d 0xFFFFFFFF be ∧
      t.intc.iclr = s.intc.iclr ∧ OnlyIntc be s t) ∧
    (∃ t, exec (.wrIclr be d) s = .next t ∧ Merged s.intc.iclr t.intc.iclr d 0xFFFFFFFF be ∧
      t.intc.icmr = s.intc.icmr ∧ OnlyIntc be s t)

/-- On a state that meets clauses (c) and (d) of the invariant (ICPR and the lines as recomputed), each of these writes
completes and leaves the whole state as it was, whatever its lanes and data (constructors wrIcip, wrIcfp, wrIcpr,
wrGplr0 to wrGplr2, wrUnmapped, wrAudio, wrAudioTop). Basis: R132, R135, R231, R240, R242, R301. -/
def Obligations.ReadOnlyAndForeignWritesChangeNothing : Prop :=
  ∀ (be : Lanes) (d : Word) (s : State) (b : Bank) (off : BitVec 25) (k : Fin 32), SourcesLatched s → LinesDriven s →
    ∀ i ∈ [Instr.wrIcip be d, .wrIcfp be d, .wrIcpr be d, wrGplr b be d, .wrUnmapped off be d, .wrAudio k be d,
        .wrAudioTop be d], exec i s = .next { s with rdata := none }

/-- After a write access with a lane enabled, a tick, a pin notification or a reset, each bit of ICPR is the level of its
source by the table of R243, and irq_line (fiq_line) is 1 exactly when some pending unmasked source is routed to it;
and after any other step this still holds if it held before. That a read and an access without a lane do not run
IntcUpdate, where R140 says every step ends with it, is read from R130 and R133 (log entry 18, DEDUCED). Basis:
43_intc.md R234, R235, 40_dispatcher.md R130, R133, R140. -/
def Obligations.EveryBlockStepSettlesTheLines : Prop :=
  ∀ (s t : State) (x : Stimulus) (rest : List Stimulus), s.inbox = x :: rest → step s = .next t →
    (x = .tick ∨ x = .reset ∨ (∃ b p l, x = .pin b p l) ∨
      (∃ a : Access, x = .access a ∧ a.cmd.getLsbD 27 = true ∧ a.be ≠ 0) ∨ Settled s) → Settled t

/-- Applying IntcUpdate twice gives the state of applying it once, and it changes nothing but ICPR, irq_line and fiq_line.
The spec marks R244 as derived. Basis: 43_intc.md R235, R244. -/
def Obligations.IntcUpdateIsIdempotentAndTouchesOnlyThePendingWordAndLines : Prop :=
  ∀ s : State, intcUpdate (intcUpdate s) = intcUpdate s ∧
    ∃ (raw : Word) (irq fiq : Bool),
      intcUpdate s = { s with intc := { s.intc with icpr := raw, irqLine := irq, fiqLine := fiq } }

/-- WR.LCCR0 completes for every lane mask; for each channel LCDEN[n] takes bit n when lane 0 is enabled, and exactly on 0
to 1 the channel loads the branch descriptor at FDADR[n] and schedules its end of frame with the present LPP and PCD;
otherwise, a disable included, its working registers keep their values. Channel 0 comes first. Flags, framebuffers,
palette, LPP, PCD and the other units stay, and the memory image is the one before, from which each start has read the
sixteen bytes of its descriptor. The image as reads find it, ports and their answers among it, is the model's form of
the accessors MemRead and MemWrite (log entry 11). Basis: 44_lcd.md R251, R261, R262, R263, 20_memory.md R71, R73. -/
def Obligations.Lccr0WriteEnablesAndDisables : Prop :=
  ∀ (be : Lanes) (d : Word) (s : State), ∃ (t : State) (m1 m2 : Image), exec (.wrLccr0 be d) s = .next t ∧
    m1 = (if s.lcd.lcden.getLsbD 0 = false ∧ t.lcd.lcden.getLsbD 0 = true then runImage 16 (s.lcdChan 0).fdadr s.mem
      else s.mem) ∧
    m2 = (if s.lcd.lcden.getLsbD 1 = false ∧ t.lcd.lcden.getLsbD 1 = true then runImage 16 (s.lcdChan 1).fdadr m1
      else m1) ∧
    (∀ n : LcdCh,
      t.lcd.lcden.getLsbD n = (if be.getLsbD 0 then d.getLsbD n else s.lcd.lcden.getLsbD n) ∧
      (t.lcdChan n).fb = (s.lcdChan n).fb ∧
      (if s.lcd.lcden.getLsbD n = false ∧ t.lcd.lcden.getLsbD n = true then
        LcdChannelLoaded (if n = 0 then s.mem else m1) (s.lcdChan n).fdadr s.lcd.lpp s.lcd.pcd (t.lcdChan n)
      else SameLcdWorking (s.lcdChan n) (t.lcdChan n))) ∧
    t.lcd.eof = s.lcd.eof ∧ t.lcd.bs = s.lcd.bs ∧ t.lcd.lpp = s.lcd.lpp ∧ t.lcd.pcd = s.lcd.pcd ∧
    t.lcd.palette = s.lcd.palette ∧ OnlyLcd be s m2 t

/-- Each of the six writes completes for every lane mask, takes the writable bits of the enabled lanes (0x3FF, 0xFF, all
32, or 0x04A31FFF for LDCMD) and leaves every other register, flag, countdown, the palette, the framebuffers and
memory as they were. Basis: R253, R255, R259, R271, R273, R275. -/
def Obligations.LcdRegisterWritesOnlyStore : Prop :=
  ∀ (n : LcdCh) (be : Lanes) (d : Word) (s : State),
    (∃ t, exec (.wrLccr2 be d) s = .next t ∧
      Merged (s.lcd.lpp.setWidth 32) (t.lcd.lpp.setWidth 32) d 0x000003FF be ∧
      t.lcd = { s.lcd with lpp := t.lcd.lpp } ∧ OnlyLcd be s s.mem t) ∧
    (∃ t, exec (.wrLccr3 be d) s = .next t ∧
      Merged (s.lcd.pcd.setWidth 32) (t.lcd.pcd.setWidth 32) d 0x000000FF be ∧
      t.lcd = { s.lcd with pcd := t.lcd.pcd } ∧ OnlyLcd be s s.mem t) ∧
    (∃ t, exec (.wrFdadr n be d) s = .next t ∧ Merged (s.lcdChan n).fdadr (t.lcdChan n).fdadr d 0xFFFFFFFF be ∧
      t.lcdChan n = { s.lcdChan n with fdadr := (t.lcdChan n).fdadr } ∧
      t.lcd = { s.lcd with chan := s.lcd.chan.set n (t.lcdChan n) } ∧ OnlyLcd be s s.mem t) ∧
    (∃ t, exec (.wrFsadr n be d) s = .next t ∧ Merged (s.lcdChan n).fsadr (t.lcdChan n).fsadr d 0xFFFFFFFF be ∧
      t.lcdChan n = { s.lcdChan n with fsadr := (t.lcdChan n).fsadr } ∧
      t.lcd = { s.lcd with chan := s.lcd.chan.set n (t.lcdChan n) } ∧ OnlyLcd be s s.mem t) ∧
    (∃ t, exec (.wrFidr n be d) s = .next t ∧ Merged (s.lcdChan n).fidr (t.lcdChan n).fidr d 0xFFFFFFFF be ∧
      t.lcdChan n = { s.lcdChan n with fidr := (t.lcdChan n).fidr } ∧
      t.lcd = { s.lcd with chan := s.lcd.chan.set n (t.lcdChan n) } ∧ OnlyLcd be s s.mem t) ∧
    (∃ t, exec (.wrLdcmd n be d) s = .next t ∧ Merged (s.lcdChan n).ldcmd (t.lcdChan n).ldcmd d 0x04A31FFF be ∧
      t.lcdChan n = { s.lcdChan n with ldcmd := (t.lcdChan n).ldcmd } ∧
      t.lcd = { s.lcd with chan := s.lcd.chan.set n (t.lcdChan n) } ∧ OnlyLcd be s s.mem t)

/-- WR.LCSR completes for every lane mask; each of EOF[0], EOF[1], BS[0], BS[1] falls exactly when its bit of the enabled
data is 1; every other register and memory stay. Basis: R257. -/
def Obligations.LcsrWriteClearsWrittenFlags : Prop :=
  ∀ (be : Lanes) (d : Word) (s : State), ∃ t, exec (.wrLcsr be d) s = .next t ∧
    (∀ n : LcdCh,
      t.lcd.eof.getLsbD n = (s.lcd.eof.getLsbD n && !(be.getLsbD 0 && d.getLsbD n.val)) ∧
      t.lcd.bs.getLsbD n = (s.lcd.bs.getLsbD n && !(be.getLsbD 0 && d.getLsbD (4 + n.val)))) ∧
    t.lcd = { s.lcd with eof := t.lcd.eof, bs := t.lcd.bs } ∧ OnlyLcd be s s.mem t

/-- LcdFire of an enabled channel sets EOF[n], sets BS[n] exactly when BINT was 1, appends one FrameOut with the ended
descriptor's identifier and the framebuffer after streaming, and clears LCDEN[n] when STOP was 1 or else loads the
next branch descriptor; a palette firing leaves the framebuffer, any other the palette. Of a disabled channel it does
nothing. The other channel and the other units stay, and the memory image is only read: the bytes of the palette or of
the frame from FSADR upward, then the next descriptor from the image after them. The image as reads find it, ports and
their answers among it, is the model's form of the accessors MemRead and MemWrite (log entry 11). Basis: 44_lcd.md
R264 to R268, R276, 20_memory.md R71, R72, R73. -/
def Obligations.LcdEndOfFrameEffect : Prop :=
  ∀ (s : State) (n : LcdCh),
    (s.lcd.lcden.getLsbD n = false → lcdFire n s = s) ∧
    (s.lcd.lcden.getLsbD n = true → ∃ (bytes : Nat) (m1 : Image),
      bytes = (if (s.lcdChan n).ldcmd.getLsbD 26 then 2 * min ((s.lcdChan n).ldcmd.extractLsb' 0 13).toNat 256
        else if (s.lcdChan n).ldcmd.extractLsb' 16 2 = 0 then
          (s.lcd.lpp.toNat + 1) * ((s.lcdChan n).ldcmd.extractLsb' 0 13).toNat
        else if (s.lcdChan n).ldcmd.extractLsb' 16 2 = 1 then
          2 * ((s.lcd.lpp.toNat + 1) * ((s.lcdChan n).ldcmd.extractLsb' 0 13).toNat)
        else 0) ∧
      m1 = runImage bytes (s.lcdChan n).fsadr s.mem ∧
      (lcdFire n s).mem = (if (s.lcdChan n).ldcmd.getLsbD 23 then m1 else runImage 16 (s.lcdChan n).fdadr m1) ∧
      (∀ k : LcdCh, (lcdFire n s).lcd.eof.getLsbD k = (s.lcd.eof.getLsbD k || decide (k = n))) ∧
      (∀ k : LcdCh, (lcdFire n s).lcd.bs.getLsbD k =
        (s.lcd.bs.getLsbD k || (decide (k = n) && (s.lcdChan n).ldcmd.getLsbD 21))) ∧
      (∀ k : LcdCh, (lcdFire n s).lcd.lcden.getLsbD k =
        if k = n then !(s.lcdChan n).ldcmd.getLsbD 23 else s.lcd.lcden.getLsbD k) ∧
      (lcdFire n s).trace = s.trace ++ [.frameOut n (s.lcdChan n).fidr ((lcdFire n s).lcdChan n).fb.lines
        ((lcdFire n s).lcdChan n).fb.llen ((lcdFire n s).lcdChan n).fb.pix] ∧
      ((s.lcdChan n).ldcmd.getLsbD 26 = true → ((lcdFire n s).lcdChan n).fb = (s.lcdChan n).fb) ∧
      ((s.lcdChan n).ldcmd.getLsbD 26 = false → (lcdFire n s).lcd.palette = s.lcd.palette) ∧
      ((s.lcdChan n).ldcmd.getLsbD 23 = true → SameLcdWorking (s.lcdChan n) ((lcdFire n s).lcdChan n)) ∧
      ((s.lcdChan n).ldcmd.getLsbD 23 = false →
        LcdChannelLoaded m1 (s.lcdChan n).fdadr s.lcd.lpp s.lcd.pcd ((lcdFire n s).lcdChan n)) ∧
      (∀ k : LcdCh, k ≠ n → (lcdFire n s).lcdChan k = s.lcdChan k) ∧
      (lcdFire n s).lcd.lpp = s.lcd.lpp ∧ (lcdFire n s).lcd.pcd = s.lcd.pcd ∧
      (lcdFire n s).timer = s.timer ∧ (lcdFire n s).dma = s.dma ∧ OnlyRead s.mem (lcdFire n s).mem ∧
      EventFrame s (lcdFire n s))

/-- At an end of frame without PAL: with PF = 0 pixel x of line y is the palette entry of byte y*LLEN + x read from FSADR
upward, with PF = 1 it is bytes 2*(y*LLEN + x) and the next, least significant first, zero-extended; on plain memory
byte j is the one at FSADR + j; the framebuffer has LPP + 1 lines of LLEN pixels; with PF = 2 or 3 it keeps its
content. The image as reads find it, ports and their answers among it, is the model's form of the accessors MemRead
and MemWrite (log entry 11). Basis: 44_lcd.md R265, R267, 20_memory.md R71, R73, R88. -/
def Obligations.LcdStreamedPixels : Prop :=
  ∀ (s : State) (n : LcdCh), s.lcd.lcden.getLsbD n = true → (s.lcdChan n).ldcmd.getLsbD 26 = false →
    ∀ (fb : FrameBuffer) (llen pf total : Nat), fb = ((lcdFire n s).lcdChan n).fb →
      llen = ((s.lcdChan n).ldcmd.extractLsb' 0 13).toNat → pf = ((s.lcdChan n).ldcmd.extractLsb' 16 2).toNat →
      total = (if pf = 0 then (s.lcd.lpp.toNat + 1) * llen else 2 * ((s.lcd.lpp.toNat + 1) * llen)) →
      ∀ bytes : List Byte, bytes = runBytes total (s.lcdChan n).fsadr s.mem →
      (pf < 2 → fb.lines = s.lcd.lpp.toNat + 1 ∧ fb.llen = llen ∧ fb.pix.length = fb.lines * llen) ∧
      (pf = 0 → ∀ y x, y < fb.lines → x < llen →
        fb.pix[y * llen + x]? = s.lcd.palette[(bytes.getD (y * llen + x) 0).toNat]?) ∧
      (pf = 1 → ∀ y x, y < fb.lines → x < llen → ∃ v : Word, fb.pix[y * llen + x]? = some v ∧
        v.toNat = (bytes.getD (2 * (y * llen + x)) 0).toNat + 2 ^ 8 * (bytes.getD (2 * (y * llen + x) + 1) 0).toNat) ∧
      (2 ≤ pf → fb = (s.lcdChan n).fb) ∧
      (PlainRun s.mem (s.lcdChan n).fsadr total →
        ∀ j, j < total → bytes.getD j 0 = plainByte s.mem ((s.lcdChan n).fsadr + BitVec.ofNat 32 j))

/-- At an end of frame with PAL = 1, palette entry k below min(LLEN, 256) becomes bytes 2k and 2k + 1 read from FSADR
upward, least significant first, zero-extended; on plain memory byte j is the one at FSADR + j; every other entry and
the framebuffer keep their values. The image as reads find it, ports and their answers among it, is the model's form
of the accessors MemRead and MemWrite (log entry 11). Basis: 44_lcd.md R266, 20_memory.md R71, R73, R88. -/
def Obligations.LcdPaletteLoadFillsTheFirstEntries : Prop :=
  ∀ (s : State) (n : LcdCh), s.lcd.lcden.getLsbD n = true → (s.lcdChan n).ldcmd.getLsbD 26 = true →
    ∀ (cnt : Nat) (bytes : List Byte), cnt = min ((s.lcdChan n).ldcmd.extractLsb' 0 13).toNat 256 →
      bytes = runBytes (2 * cnt) (s.lcdChan n).fsadr s.mem →
      ((lcdFire n s).lcdChan n).fb = (s.lcdChan n).fb ∧
      (∀ k : Fin 256,
        (k.val < cnt → (lcdFire n s).lcd.palette[k].toNat =
          (bytes.getD (2 * k.val) 0).toNat + 2 ^ 8 * (bytes.getD (2 * k.val + 1) 0).toNat) ∧
        (cnt ≤ k.val → (lcdFire n s).lcd.palette[k] = s.lcd.palette[k])) ∧
      (PlainRun s.mem (s.lcdChan n).fsadr (2 * cnt) →
        ∀ j, j < 2 * cnt → bytes.getD j 0 = plainByte s.mem ((s.lcdChan n).fsadr + BitVec.ofNat 32 j))

/-- Through any number of ticks fewer than its countdown an enabled channel keeps its registers and framebuffer and only
counts down; in the tick that makes the countdown 0 it fires: EOF[n] is set, and LCDEN[n] is cleared when STOP was 1,
or else the next end of frame is exactly one period away, LCD_PERIOD of the unchanged LPP and PCD: no drift. Basis:
10_state.md R51, 40_dispatcher.md R138, 44_lcd.md R264, R278. -/
def Obligations.LcdEndOfFrameFiresExactlyOnTime : Prop :=
  ∀ (s : State) (n : LcdCh), s.lcd.lcden.getLsbD n = true → 1 ≤ (s.lcdChan n).lrem →
    (∀ k, k < (s.lcdChan n).lrem →
      (ticks k s).lcdChan n = { s.lcdChan n with lrem := (s.lcdChan n).lrem - k } ∧
      (ticks k s).lcd.lcden.getLsbD n = true ∧ (ticks k s).lcd.eof.getLsbD n = s.lcd.eof.getLsbD n) ∧
    (ticks (s.lcdChan n).lrem s).lcd.eof.getLsbD n = true ∧
    (ticks (s.lcdChan n).lrem s).lcd.lcden.getLsbD n = !(s.lcdChan n).ldcmd.getLsbD 23 ∧
    ((s.lcdChan n).ldcmd.getLsbD 23 = false →
      ((ticks (s.lcdChan n).lrem s).lcdChan n).lrem = Config.lcdPeriod s.lcd.lpp s.lcd.pcd)

/-- The writes of the edge enables take the enabled lanes and set no latch; a write of GEDR clears exactly the written
ones; each completes for every lane mask, leaves every other field of the bank, the other banks and units, memory and
the trace (constructors wrGrer0 to wrGrer2, wrGfer0 to wrGfer2, wrGedr0 to wrGedr2). Basis: R309, R311, R313. -/
def Obligations.EdgeEnableWritesStoreAndLatchWritesClear : Prop :=
  ∀ (b : Bank) (be : Lanes) (d : Word) (s : State),
    (∃ t, exec (wrGrer b be d) s = .next t ∧ Merged (s.bank b).grer (t.bank b).grer d 0xFFFFFFFF be ∧
      t.bank b = { s.bank b with grer := (t.bank b).grer } ∧ t.trace = s.trace ∧ OnlyBank b be s t) ∧
    (∃ t, exec (wrGfer b be d) s = .next t ∧ Merged (s.bank b).gfer (t.bank b).gfer d 0xFFFFFFFF be ∧
      t.bank b = { s.bank b with gfer := (t.bank b).gfer } ∧ t.trace = s.trace ∧ OnlyBank b be s t) ∧
    (∃ t, exec (wrGedr b be d) s = .next t ∧ ClearedByOnes (s.bank b).gedr (t.bank b).gedr d 0xFFFFFFFF be ∧
      t.bank b = { s.bank b with gedr := (t.bank b).gedr } ∧ t.trace = s.trace ∧ OnlyBank b be s t)

/-- A write of GPDR on any bank completes for every lane mask: GPDIR takes the enabled lanes, GEDR and every other field
stay, and one GpioOut with the new direction and driven levels is appended exactly when the direction or the driven
levels changed (constructors wrGpdr0 to wrGpdr2). Basis: R303. -/
def Obligations.DirectionWriteStoresAndNotifies : Prop :=
  ∀ (b : Bank) (be : Lanes) (d : Word) (s : State), ∃ t, exec (wrGpdr b be d) s = .next t ∧
    Merged (s.bank b).gpdir (t.bank b).gpdir d 0xFFFFFFFF be ∧
    t.bank b = { s.bank b with gpdir := (t.bank b).gpdir } ∧
    t.trace = (if (t.bank b).gpdir = (s.bank b).gpdir ∧
        (t.bank b).gpdir &&& (s.bank b).gpout = (s.bank b).gpdir &&& (s.bank b).gpout then s.trace
      else s.trace ++ [.gpioOut b (t.bank b).gpdir ((t.bank b).gpdir &&& (s.bank b).gpout)]) ∧
    OnlyBank b be s t

/-- On any bank and for every lane mask a write of GPSR (GPCR) sets (clears) the latch of exactly the output pins written
1 in enabled lanes and leaves input pins; one GpioOut is appended exactly when the latch changed; everything else
stays (constructors wrGpsr0 to wrGpsr2, wrGpcr0 to wrGpcr2). Basis: R305, R307. -/
def Obligations.SetAndClearWritesMoveOnlyOutputPins : Prop :=
  ∀ (b : Bank) (be : Lanes) (d : Word) (s : State),
    (∃ t, exec (wrGpsr b be d) s = .next t ∧
      (∀ k, k < 32 → (t.bank b).gpout.getLsbD k =
        ((s.bank b).gpout.getLsbD k || (laneOn be k && d.getLsbD k && (s.bank b).gpdir.getLsbD k))) ∧
      t.bank b = { s.bank b with gpout := (t.bank b).gpout } ∧
      t.trace = (if (t.bank b).gpout = (s.bank b).gpout then s.trace
        else s.trace ++ [.gpioOut b (s.bank b).gpdir ((s.bank b).gpdir &&& (t.bank b).gpout)]) ∧ OnlyBank b be s t) ∧
    (∃ t, exec (wrGpcr b be d) s = .next t ∧
      (∀ k, k < 32 → (t.bank b).gpout.getLsbD k =
        ((s.bank b).gpout.getLsbD k && !(laneOn be k && d.getLsbD k && (s.bank b).gpdir.getLsbD k))) ∧
      t.bank b = { s.bank b with gpout := (t.bank b).gpout } ∧
      t.trace = (if (t.bank b).gpout = (s.bank b).gpout then s.trace
        else s.trace ++ [.gpioOut b (s.bank b).gpdir ((s.bank b).gpdir &&& (t.bank b).gpout)]) ∧ OnlyBank b be s t)

/-- After Pin(b, p, level) bit p of GPIN is the level; GEDR bit p is set exactly when the pin is an input, its stored
level changed, and the edge's direction is armed; a set latch stays set; every other bit, bank, unit, memory and the
trace stay, and the interrupt controller is settled. Basis: R315, R316. -/
def Obligations.PinStepDetectsArmedEdgesOnInputPins : Prop :=
  ∀ (b : Bank) (p : Nat) (level : Bool) (s : State), p < 32 →
    (∀ k, k < 32 → ((pinStep b p level s).bank b).gpin.getLsbD k =
      if k = p then level else (s.bank b).gpin.getLsbD k) ∧
    (∀ k, k < 32 → ((pinStep b p level s).bank b).gedr.getLsbD k =
      ((s.bank b).gedr.getLsbD k || (decide (k = p) && !(s.bank b).gpdir.getLsbD p &&
        decide ((s.bank b).gpin.getLsbD p ≠ level) &&
        (if level then (s.bank b).grer.getLsbD p else (s.bank b).gfer.getLsbD p)))) ∧
    (pinStep b p level s).bank b = { s.bank b with
      gpin := ((pinStep b p level s).bank b).gpin, gedr := ((pinStep b p level s).bank b).gedr } ∧
    (∀ c : Bank, c ≠ b → (pinStep b p level s).bank c = s.bank c) ∧
    (pinStep b p level s).timer = s.timer ∧ (pinStep b p level s).dma = s.dma ∧ (pinStep b p level s).lcd = s.lcd ∧
    SameMem s (pinStep b p level s) ∧ (pinStep b p level s).trace = s.trace ∧ OwnAfterWrite s (pinStep b p level s) ∧
    (pinStep b p level s).intc.icmr = s.intc.icmr ∧ (pinStep b p level s).intc.iclr = s.intc.iclr ∧
    Settled (pinStep b p level s)

/-- After a tick the GPIO banks, ICMR, ICLR, LPP, PCD and the stimuli still waiting are as before and the interrupt
controller is settled. Every byte of plain memory is as before but those at a target address of a DMA channel that
runs and whose countdown this tick makes 0 (a countdown already at 0, which no run reaches, counts as due: log entry
14). With no such channel the memory image is only read, and with no LCD channel due either it is not touched. Basis:
40_dispatcher.md R138, 41_dma.md R166, 20_memory.md R72. -/
def Obligations.TickLeavesTheRest : Prop :=
  ∀ s : State,
    (tickStep s).gpio = s.gpio ∧ (tickStep s).intc.icmr = s.intc.icmr ∧ (tickStep s).intc.iclr = s.intc.iclr ∧
    (tickStep s).lcd.lpp = s.lcd.lpp ∧ (tickStep s).lcd.pcd = s.lcd.pcd ∧ (tickStep s).inbox = s.inbox ∧
    (tickStep s).rdata = none ∧ Settled (tickStep s) ∧
    (∀ a : Word,
      (∀ (ch : Channel) (k : Nat), (s.chan ch).run = true → (s.chan ch).drem ≤ 1 →
        k < ((s.chan ch).dcmd.extractLsb' 0 13).toNat →
        a ≠ rangeAddr ((s.chan ch).dcmd.getLsbD 30) (s.chan ch).dtadr k) →
      plainByte (tickStep s).mem a = plainByte s.mem a) ∧
    (tickStep s).mem.ports = s.mem.ports ∧
    ((∀ ch : Channel, (s.chan ch).run = true → 2 ≤ (s.chan ch).drem) →
      OnlyRead s.mem (tickStep s).mem ∧
      ((∀ n : LcdCh, s.lcd.lcden.getLsbD n = true → 2 ≤ (s.lcdChan n).lrem) → SameMem s (tickStep s)))

/-- From every state, after a Reset each of the register words of the block reads 0, both lines are 0, every hidden
element has its reset value but the palette, which may hold anything, and the memory image, the output trace and the
waiting stimuli are as before. (DREM and LREM reset to 0 by the model's choice, log entry 13.) Basis:
70_reset_and_hazards.md R360, R361, 10_state.md R64. -/
def Obligations.ResetRestoresEveryRegister : Prop :=
  ∀ (s : State) (be : Lanes) (ch : Channel) (i : Slot) (n : LcdCh) (b : Bank),
    (∀ r ∈ [Instr.rdDcsr ch be, .rdDint be, .rdDdadr ch be, .rdDsadr ch be, .rdDtadr ch be, .rdDcmd ch be, .rdOsmr i be,
        .rdOscr be, .rdOssr be, .rdOier be, .rdIcip be, .rdIcmr be, .rdIclr be, .rdIcfp be, .rdIcpr be, .rdLccr0 be,
        .rdLccr2 be, .rdLccr3 be, .rdLcsr be, .rdFdadr n be, .rdFsadr n be, .rdFidr n be, .rdLdcmd n be, rdGplr b be,
        rdGpdr b be, rdGpsr b be, rdGpcr b be, rdGrer b be, rdGfer b be, rdGedr b be], Reads r (resetStep s) 0) ∧
    resetStep s = { State.reset with
      lcd := { State.reset.lcd with palette := (resetStep s).lcd.palette }
      mem := s.mem, trace := s.trace, inbox := s.inbox, draws := s.draws + 1 } ∧
    State.reset.timer.armed = 0 ∧ (State.reset.chan ch).run = false ∧ State.reset.lcd.lcden = 0 ∧
    (State.reset.bank b).gpout = 0 ∧ (State.reset.bank b).gpin = 0 ∧ (State.reset.lcdChan n).fb = ⟨0, 0, []⟩ ∧
    State.reset.intc.irqLine = false ∧ State.reset.intc.fiqLine = false

/-- From every state, after a Reset followed by k ticks no byte of memory and no entry of the trace has changed, no
status, pending or frame flag is set, both lines are 0, and OSCR is k modulo 2^32: nothing in flight at the reset
completes. The spec marks R362 as derived. Basis: 70_reset_and_hazards.md R362, R363. -/
def Obligations.ResetCancelsEveryEvent : Prop :=
  ∀ (s : State) (k : Nat),
    SameMem s (ticks k (resetStep s)) ∧ (ticks k (resetStep s)).trace = s.trace ∧
    (ticks k (resetStep s)).timer.oscr = BitVec.ofNat 32 k ∧ (ticks k (resetStep s)).timer.ossr = 0 ∧
    (ticks k (resetStep s)).dma.irqp = 0 ∧ (ticks k (resetStep s)).lcd.eof = 0 ∧ (ticks k (resetStep s)).lcd.bs = 0 ∧
    (∀ ch : Channel, ((ticks k (resetStep s)).chan ch).endFlag = false) ∧
    (ticks k (resetStep s)).intc.icpr = 0 ∧ (ticks k (resetStep s)).intc.irqLine = false ∧
    (ticks k (resetStep s)).intc.fiqLine = false

/-- Ordering a list of events by a rank permutes it, and for every permutation of a list without repeats there is a rank
that gives it: the free rank of the model stands for TIE_ORDER, any total order of the due set. Basis:
40_dispatcher.md R139. -/
def Obligations.TieOrderIsEveryTotalOrder : Prop :=
  (∀ (rank : Event → Nat) (l : List Event), (tieOrder rank l).Perm l) ∧
    ∀ l l' : List Event, l.Nodup → l'.Perm l → ∃ rank : Event → Nat, tieOrder rank l = l'

/-- Firing the same events in two orders leaves the same timer unit, the same RUN, END, BUSERR, EN, PAUSE, REQ and IRQP of
every DMA channel, the same LCDEN, EOF, BS, LPP and PCD, the same GPIO banks, the same interrupt controller, ICMR and
ICLR among it, and the same interrupt source word. Only what an event reads from the memory image or writes to it (the
working registers and countdowns, the palette, the framebuffers, the image itself) and the trace can differ. Basis:
40_dispatcher.md R139. -/
def Obligations.FlagsDoNotDependOnTheTieOrder : Prop :=
  ∀ (l l' : List Event) (s : State), l.Nodup → l'.Perm l →
    SameFlags (fireAll l s) (fireAll l' s) ∧ sources (fireAll l s) = sources (fireAll l' s)

/-- An address is a port exactly when the environment has put one there. A read of plain memory gives its byte and changes
nothing, a write changes that one byte. A read of a port takes the next of the environment's answers, a write of a
port hands the byte over, and both are recorded and leave plain memory. A run of n reads at ascending addresses gives,
on plain memory, the n bytes, and on ports the next n answers, each recorded at its address. MemRead and MemWrite are
arguments of the model in R71 and R79; this form of them is the model's choice (log entries 9 and 11, DESIGN CHOICE).
Basis: 20_memory.md R71, R73, R79, R88. -/
def Obligations.MemoryAccessorsAndRuns : Prop :=
  ∀ (m : Image) (a : Word) (v : Byte),
    (m.isPort a = true ↔ ∃ r ∈ m.ports, r.first ≤ a ∧ a ≤ r.last) ∧
    (m.isPort a = false → readByte m a = plainByte m a ∧ afterRead m a = m ∧
      (∀ k : Word, plainByte (writeByte m a v) k = if k = a then v else plainByte m k) ∧
      writeByte m a v = { m with cells := (writeByte m a v).cells }) ∧
    (m.isPort a = true →
      (∀ w rest, m.answers = w :: rest → readByte m a = w) ∧
      afterRead m a = { m with answers := m.answers.tail, log := m.log ++ [.read a (readByte m a)] } ∧
      writeByte m a v = { m with log := m.log ++ [.write a v] }) ∧
    ∀ n : Nat,
      (PlainRun m a n → runBytes n a m = (List.range n).map (fun k => plainByte m (a + BitVec.ofNat 32 k)) ∧
        runImage n a m = m) ∧
      ((∀ k, k < n → m.isPort (a + BitVec.ofNat 32 k) = true) → n ≤ m.answers.length →
        runBytes n a m = m.answers.take n ∧
        runImage n a m = { m with
          answers := m.answers.drop n
          log := m.log ++ (List.range n).map fun k => .read (a + BitVec.ofNat 32 k) (m.answers.getD k 0) })

/-- When every source address of a running channel, fixed or incrementing, is a port, and the target increments over plain
memory, the completion leaves answer k in target byte k, uses up LEN answers and records LEN reads: the scenario of C3
with a FIFO as the fixed source. When every target address is a port and the source is plain memory, the copy hands
over the source bytes in order and changes no byte of plain memory. That the environment's accessors take this form is
the model's choice (log entry 11, DESIGN CHOICE). Basis: 41_dma.md R166, 20_memory.md R71, R79, 90_conflicts.md C3,
95_test_vectors.md E6. -/
def Obligations.PortsAreReadAndWrittenInOrder : Prop :=
  ∀ (s : State) (ch : Channel) (len : Nat) (src trg : Nat → Word), (s.chan ch).run = true →
    len = ((s.chan ch).dcmd.extractLsb' 0 13).toNat →
    src = rangeAddr ((s.chan ch).dcmd.getLsbD 31) (s.chan ch).dsadr →
    trg = rangeAddr ((s.chan ch).dcmd.getLsbD 30) (s.chan ch).dtadr →
    ((∀ k, k < len → s.mem.isPort (src k) = true) → (∀ k, k < len → s.mem.isPort (trg k) = false) →
      (s.chan ch).dcmd.getLsbD 30 = true → len ≤ s.mem.answers.length →
      (∀ k v, k < len → s.mem.answers[k]? = some v → plainByte (dmaFire ch s).mem (trg k) = v) ∧
      (dmaCopy ch s).mem.answers = s.mem.answers.drop len ∧
      (dmaCopy ch s).mem.log =
        s.mem.log ++ (List.range len).map fun k => .read (src k) (s.mem.answers.getD k 0)) ∧
    ((∀ k, k < len → s.mem.isPort (src k) = false) → (∀ k, k < len → s.mem.isPort (trg k) = true) →
      (dmaCopy ch s).mem = { s.mem with
        log := s.mem.log ++ (List.range len).map fun k => .write (trg k) (plainByte s.mem (src k)) })
end

