-- ==== Sys2Proof/Laws/State.lean ====
section
/-! SUPPORT. One lemma per field per update of the state, each true by rfl, so that no later proof unfolds a record
update; and what the replicated registers read as after an update. -/

namespace Sys2Proof.Machine

@[simp] theorem State.setTimer_timer (s : State) (v : Timer) : (s.setTimer v).timer = v := rfl
@[simp] theorem State.setTimer_dma (s : State) (v : Timer) : (s.setTimer v).dma = s.dma := rfl
@[simp] theorem State.setTimer_intc (s : State) (v : Timer) : (s.setTimer v).intc = s.intc := rfl
@[simp] theorem State.setTimer_lcd (s : State) (v : Timer) : (s.setTimer v).lcd = s.lcd := rfl
@[simp] theorem State.setTimer_gpio (s : State) (v : Timer) : (s.setTimer v).gpio = s.gpio := rfl
@[simp] theorem State.setTimer_mem (s : State) (v : Timer) : (s.setTimer v).mem = s.mem := rfl
@[simp] theorem State.setTimer_trace (s : State) (v : Timer) : (s.setTimer v).trace = s.trace := rfl
@[simp] theorem State.setTimer_rdata (s : State) (v : Timer) : (s.setTimer v).rdata = s.rdata := rfl
@[simp] theorem State.setTimer_inbox (s : State) (v : Timer) : (s.setTimer v).inbox = s.inbox := rfl
@[simp] theorem State.setTimer_draws (s : State) (v : Timer) : (s.setTimer v).draws = s.draws := rfl

@[simp] theorem State.setIntc_timer (s : State) (v : Intc) : (s.setIntc v).timer = s.timer := rfl
@[simp] theorem State.setIntc_dma (s : State) (v : Intc) : (s.setIntc v).dma = s.dma := rfl
@[simp] theorem State.setIntc_intc (s : State) (v : Intc) : (s.setIntc v).intc = v := rfl
@[simp] theorem State.setIntc_lcd (s : State) (v : Intc) : (s.setIntc v).lcd = s.lcd := rfl
@[simp] theorem State.setIntc_gpio (s : State) (v : Intc) : (s.setIntc v).gpio = s.gpio := rfl
@[simp] theorem State.setIntc_mem (s : State) (v : Intc) : (s.setIntc v).mem = s.mem := rfl
@[simp] theorem State.setIntc_trace (s : State) (v : Intc) : (s.setIntc v).trace = s.trace := rfl
@[simp] theorem State.setIntc_rdata (s : State) (v : Intc) : (s.setIntc v).rdata = s.rdata := rfl
@[simp] theorem State.setIntc_inbox (s : State) (v : Intc) : (s.setIntc v).inbox = s.inbox := rfl
@[simp] theorem State.setIntc_draws (s : State) (v : Intc) : (s.setIntc v).draws = s.draws := rfl

@[simp] theorem State.setLcd_timer (s : State) (v : Lcd) : (s.setLcd v).timer = s.timer := rfl
@[simp] theorem State.setLcd_dma (s : State) (v : Lcd) : (s.setLcd v).dma = s.dma := rfl
@[simp] theorem State.setLcd_intc (s : State) (v : Lcd) : (s.setLcd v).intc = s.intc := rfl
@[simp] theorem State.setLcd_lcd (s : State) (v : Lcd) : (s.setLcd v).lcd = v := rfl
@[simp] theorem State.setLcd_gpio (s : State) (v : Lcd) : (s.setLcd v).gpio = s.gpio := rfl
@[simp] theorem State.setLcd_mem (s : State) (v : Lcd) : (s.setLcd v).mem = s.mem := rfl
@[simp] theorem State.setLcd_trace (s : State) (v : Lcd) : (s.setLcd v).trace = s.trace := rfl
@[simp] theorem State.setLcd_rdata (s : State) (v : Lcd) : (s.setLcd v).rdata = s.rdata := rfl
@[simp] theorem State.setLcd_inbox (s : State) (v : Lcd) : (s.setLcd v).inbox = s.inbox := rfl
@[simp] theorem State.setLcd_draws (s : State) (v : Lcd) : (s.setLcd v).draws = s.draws := rfl

@[simp] theorem State.setMem_timer (s : State) (v : Image) : (s.setMem v).timer = s.timer := rfl
@[simp] theorem State.setMem_dma (s : State) (v : Image) : (s.setMem v).dma = s.dma := rfl
@[simp] theorem State.setMem_intc (s : State) (v : Image) : (s.setMem v).intc = s.intc := rfl
@[simp] theorem State.setMem_lcd (s : State) (v : Image) : (s.setMem v).lcd = s.lcd := rfl
@[simp] theorem State.setMem_gpio (s : State) (v : Image) : (s.setMem v).gpio = s.gpio := rfl
@[simp] theorem State.setMem_mem (s : State) (v : Image) : (s.setMem v).mem = v := rfl
@[simp] theorem State.setMem_trace (s : State) (v : Image) : (s.setMem v).trace = s.trace := rfl
@[simp] theorem State.setMem_rdata (s : State) (v : Image) : (s.setMem v).rdata = s.rdata := rfl
@[simp] theorem State.setMem_inbox (s : State) (v : Image) : (s.setMem v).inbox = s.inbox := rfl
@[simp] theorem State.setMem_draws (s : State) (v : Image) : (s.setMem v).draws = s.draws := rfl

@[simp] theorem State.answer_timer (s : State) (v : Option Word) : (s.answer v).timer = s.timer := rfl
@[simp] theorem State.answer_dma (s : State) (v : Option Word) : (s.answer v).dma = s.dma := rfl
@[simp] theorem State.answer_intc (s : State) (v : Option Word) : (s.answer v).intc = s.intc := rfl
@[simp] theorem State.answer_lcd (s : State) (v : Option Word) : (s.answer v).lcd = s.lcd := rfl
@[simp] theorem State.answer_gpio (s : State) (v : Option Word) : (s.answer v).gpio = s.gpio := rfl
@[simp] theorem State.answer_mem (s : State) (v : Option Word) : (s.answer v).mem = s.mem := rfl
@[simp] theorem State.answer_trace (s : State) (v : Option Word) : (s.answer v).trace = s.trace := rfl
@[simp] theorem State.answer_rdata (s : State) (v : Option Word) : (s.answer v).rdata = v := rfl
@[simp] theorem State.answer_inbox (s : State) (v : Option Word) : (s.answer v).inbox = s.inbox := rfl
@[simp] theorem State.answer_draws (s : State) (v : Option Word) : (s.answer v).draws = s.draws := rfl

@[simp] theorem State.emit_timer (s : State) (e : OutEvent) : (s.emit e).timer = s.timer := rfl
@[simp] theorem State.emit_dma (s : State) (e : OutEvent) : (s.emit e).dma = s.dma := rfl
@[simp] theorem State.emit_intc (s : State) (e : OutEvent) : (s.emit e).intc = s.intc := rfl
@[simp] theorem State.emit_lcd (s : State) (e : OutEvent) : (s.emit e).lcd = s.lcd := rfl
@[simp] theorem State.emit_gpio (s : State) (e : OutEvent) : (s.emit e).gpio = s.gpio := rfl
@[simp] theorem State.emit_mem (s : State) (e : OutEvent) : (s.emit e).mem = s.mem := rfl
@[simp] theorem State.emit_trace (s : State) (e : OutEvent) : (s.emit e).trace = s.trace ++ [e] := rfl
@[simp] theorem State.emit_rdata (s : State) (e : OutEvent) : (s.emit e).rdata = s.rdata := rfl
@[simp] theorem State.emit_inbox (s : State) (e : OutEvent) : (s.emit e).inbox = s.inbox := rfl
@[simp] theorem State.emit_draws (s : State) (e : OutEvent) : (s.emit e).draws = s.draws := rfl

@[simp] theorem State.setIrqp_timer (s : State) (v : BitVec 16) : (s.setIrqp v).timer = s.timer := rfl
@[simp] theorem State.setIrqp_intc (s : State) (v : BitVec 16) : (s.setIrqp v).intc = s.intc := rfl
@[simp] theorem State.setIrqp_lcd (s : State) (v : BitVec 16) : (s.setIrqp v).lcd = s.lcd := rfl
@[simp] theorem State.setIrqp_gpio (s : State) (v : BitVec 16) : (s.setIrqp v).gpio = s.gpio := rfl
@[simp] theorem State.setIrqp_mem (s : State) (v : BitVec 16) : (s.setIrqp v).mem = s.mem := rfl
@[simp] theorem State.setIrqp_trace (s : State) (v : BitVec 16) : (s.setIrqp v).trace = s.trace := rfl
@[simp] theorem State.setIrqp_rdata (s : State) (v : BitVec 16) : (s.setIrqp v).rdata = s.rdata := rfl
@[simp] theorem State.setIrqp_inbox (s : State) (v : BitVec 16) : (s.setIrqp v).inbox = s.inbox := rfl
@[simp] theorem State.setIrqp_draws (s : State) (v : BitVec 16) : (s.setIrqp v).draws = s.draws := rfl

@[simp] theorem State.setChan_timer (s : State) (ch : Channel) (c : DmaChannel) : (s.setChan ch c).timer = s.timer := rfl
@[simp] theorem State.setChan_intc (s : State) (ch : Channel) (c : DmaChannel) : (s.setChan ch c).intc = s.intc := rfl
@[simp] theorem State.setChan_lcd (s : State) (ch : Channel) (c : DmaChannel) : (s.setChan ch c).lcd = s.lcd := rfl
@[simp] theorem State.setChan_gpio (s : State) (ch : Channel) (c : DmaChannel) : (s.setChan ch c).gpio = s.gpio := rfl
@[simp] theorem State.setChan_mem (s : State) (ch : Channel) (c : DmaChannel) : (s.setChan ch c).mem = s.mem := rfl
@[simp] theorem State.setChan_trace (s : State) (ch : Channel) (c : DmaChannel) : (s.setChan ch c).trace = s.trace := rfl
@[simp] theorem State.setChan_rdata (s : State) (ch : Channel) (c : DmaChannel) : (s.setChan ch c).rdata = s.rdata := rfl
@[simp] theorem State.setChan_inbox (s : State) (ch : Channel) (c : DmaChannel) : (s.setChan ch c).inbox = s.inbox := rfl
@[simp] theorem State.setChan_draws (s : State) (ch : Channel) (c : DmaChannel) : (s.setChan ch c).draws = s.draws := rfl

@[simp] theorem State.setLcdChan_timer (s : State) (n : LcdCh) (c : LcdChannel) : (s.setLcdChan n c).timer = s.timer := rfl
@[simp] theorem State.setLcdChan_dma (s : State) (n : LcdCh) (c : LcdChannel) : (s.setLcdChan n c).dma = s.dma := rfl
@[simp] theorem State.setLcdChan_intc (s : State) (n : LcdCh) (c : LcdChannel) : (s.setLcdChan n c).intc = s.intc := rfl
@[simp] theorem State.setLcdChan_gpio (s : State) (n : LcdCh) (c : LcdChannel) : (s.setLcdChan n c).gpio = s.gpio := rfl
@[simp] theorem State.setLcdChan_mem (s : State) (n : LcdCh) (c : LcdChannel) : (s.setLcdChan n c).mem = s.mem := rfl
@[simp] theorem State.setLcdChan_trace (s : State) (n : LcdCh) (c : LcdChannel) : (s.setLcdChan n c).trace = s.trace := rfl
@[simp] theorem State.setLcdChan_rdata (s : State) (n : LcdCh) (c : LcdChannel) : (s.setLcdChan n c).rdata = s.rdata := rfl
@[simp] theorem State.setLcdChan_inbox (s : State) (n : LcdCh) (c : LcdChannel) : (s.setLcdChan n c).inbox = s.inbox := rfl
@[simp] theorem State.setLcdChan_draws (s : State) (n : LcdCh) (c : LcdChannel) : (s.setLcdChan n c).draws = s.draws := rfl

@[simp] theorem State.setBank_timer (s : State) (b : Bank) (g : GpioBank) : (s.setBank b g).timer = s.timer := rfl
@[simp] theorem State.setBank_dma (s : State) (b : Bank) (g : GpioBank) : (s.setBank b g).dma = s.dma := rfl
@[simp] theorem State.setBank_intc (s : State) (b : Bank) (g : GpioBank) : (s.setBank b g).intc = s.intc := rfl
@[simp] theorem State.setBank_lcd (s : State) (b : Bank) (g : GpioBank) : (s.setBank b g).lcd = s.lcd := rfl
@[simp] theorem State.setBank_mem (s : State) (b : Bank) (g : GpioBank) : (s.setBank b g).mem = s.mem := rfl
@[simp] theorem State.setBank_trace (s : State) (b : Bank) (g : GpioBank) : (s.setBank b g).trace = s.trace := rfl
@[simp] theorem State.setBank_rdata (s : State) (b : Bank) (g : GpioBank) : (s.setBank b g).rdata = s.rdata := rfl
@[simp] theorem State.setBank_inbox (s : State) (b : Bank) (g : GpioBank) : (s.setBank b g).inbox = s.inbox := rfl
@[simp] theorem State.setBank_draws (s : State) (b : Bank) (g : GpioBank) : (s.setBank b g).draws = s.draws := rfl

@[simp] theorem State.draw_timer (s : State) : (s.draw).timer = s.timer := rfl
@[simp] theorem State.draw_dma (s : State) : (s.draw).dma = s.dma := rfl
@[simp] theorem State.draw_intc (s : State) : (s.draw).intc = s.intc := rfl
@[simp] theorem State.draw_lcd (s : State) : (s.draw).lcd = s.lcd := rfl
@[simp] theorem State.draw_gpio (s : State) : (s.draw).gpio = s.gpio := rfl
@[simp] theorem State.draw_mem (s : State) : (s.draw).mem = s.mem := rfl
@[simp] theorem State.draw_trace (s : State) : (s.draw).trace = s.trace := rfl
@[simp] theorem State.draw_rdata (s : State) : (s.draw).rdata = s.rdata := rfl
@[simp] theorem State.draw_inbox (s : State) : (s.draw).inbox = s.inbox := rfl
@[simp] theorem State.draw_draws (s : State) : (s.draw).draws = s.draws + 1 := rfl

@[simp] theorem State.setIrqp_irqp (s : State) (v : BitVec 16) : (s.setIrqp v).dma.irqp = v := rfl
@[simp] theorem State.setIrqp_dma_chan (s : State) (v : BitVec 16) : (s.setIrqp v).dma.chan = s.dma.chan := rfl
@[simp] theorem State.setChan_irqp (s : State) (ch : Channel) (c : DmaChannel) :
    (s.setChan ch c).dma.irqp = s.dma.irqp := rfl
@[simp] theorem State.setLcdChan_lcden (s : State) (n : LcdCh) (c : LcdChannel) :
    (s.setLcdChan n c).lcd.lcden = s.lcd.lcden := rfl
@[simp] theorem State.setLcdChan_lpp (s : State) (n : LcdCh) (c : LcdChannel) :
    (s.setLcdChan n c).lcd.lpp = s.lcd.lpp := rfl
@[simp] theorem State.setLcdChan_pcd (s : State) (n : LcdCh) (c : LcdChannel) :
    (s.setLcdChan n c).lcd.pcd = s.lcd.pcd := rfl
@[simp] theorem State.setLcdChan_eof (s : State) (n : LcdCh) (c : LcdChannel) :
    (s.setLcdChan n c).lcd.eof = s.lcd.eof := rfl
@[simp] theorem State.setLcdChan_bs (s : State) (n : LcdCh) (c : LcdChannel) :
    (s.setLcdChan n c).lcd.bs = s.lcd.bs := rfl
@[simp] theorem State.setLcdChan_palette (s : State) (n : LcdCh) (c : LcdChannel) :
    (s.setLcdChan n c).lcd.palette = s.lcd.palette := rfl

@[simp] theorem State.setChan_chan_same (s : State) (ch : Channel) (c : DmaChannel) : (s.setChan ch c).chan ch = c := by
  simp [State.chan, State.setChan]

theorem State.setChan_chan_other (s : State) {ch k : Channel} (c : DmaChannel) (h : k ≠ ch) :
    (s.setChan ch c).chan k = s.chan k := by
  have : (ch : Nat) ≠ k := fun e => h (Fin.ext e.symm)
  simp [State.chan, State.setChan, this]

/-- The channels after an update, said once. -/
theorem State.setChan_chan (s : State) (ch k : Channel) (c : DmaChannel) :
    (s.setChan ch c).chan k = if k = ch then c else s.chan k := by
  split
  · next h => subst h; simp
  · next h => exact s.setChan_chan_other c h

@[simp] theorem State.setLcdChan_lcdChan_same (s : State) (n : LcdCh) (c : LcdChannel) :
    (s.setLcdChan n c).lcdChan n = c := by
  simp [State.lcdChan, State.setLcdChan]

theorem State.setLcdChan_lcdChan_other (s : State) {n k : LcdCh} (c : LcdChannel) (h : k ≠ n) :
    (s.setLcdChan n c).lcdChan k = s.lcdChan k := by
  have : (n : Nat) ≠ k := fun e => h (Fin.ext e.symm)
  simp [State.lcdChan, State.setLcdChan, this]

/-- The LCD channels after an update, said once. -/
theorem State.setLcdChan_lcdChan (s : State) (n k : LcdCh) (c : LcdChannel) :
    (s.setLcdChan n c).lcdChan k = if k = n then c else s.lcdChan k := by
  split
  · next h => subst h; simp
  · next h => exact s.setLcdChan_lcdChan_other c h

@[simp] theorem State.setBank_bank_same (s : State) (b : Bank) (g : GpioBank) : (s.setBank b g).bank b = g := by
  simp [State.bank, State.setBank]

theorem State.setBank_bank_other (s : State) {b k : Bank} (g : GpioBank) (h : k ≠ b) :
    (s.setBank b g).bank k = s.bank k := by
  have : (b : Nat) ≠ k := fun e => h (Fin.ext e.symm)
  simp [State.bank, State.setBank, this]

@[simp] theorem State.setTimer_chan (s : State) (v : Timer) (k : Channel) : (s.setTimer v).chan k = s.chan k := rfl
@[simp] theorem State.setIntc_chan (s : State) (v : Intc) (k : Channel) : (s.setIntc v).chan k = s.chan k := rfl
@[simp] theorem State.setLcd_chan (s : State) (v : Lcd) (k : Channel) : (s.setLcd v).chan k = s.chan k := rfl
@[simp] theorem State.setMem_chan (s : State) (v : Image) (k : Channel) : (s.setMem v).chan k = s.chan k := rfl
@[simp] theorem State.answer_chan (s : State) (v : Option Word) (k : Channel) : (s.answer v).chan k = s.chan k := rfl
@[simp] theorem State.emit_chan (s : State) (e : OutEvent) (k : Channel) : (s.emit e).chan k = s.chan k := rfl
@[simp] theorem State.setIrqp_chan (s : State) (v : BitVec 16) (k : Channel) : (s.setIrqp v).chan k = s.chan k := rfl
@[simp] theorem State.setLcdChan_chan (s : State) (n : LcdCh) (c : LcdChannel) (k : Channel) : (s.setLcdChan n c).chan k = s.chan k := rfl
@[simp] theorem State.setBank_chan (s : State) (b : Bank) (g : GpioBank) (k : Channel) : (s.setBank b g).chan k = s.chan k := rfl
@[simp] theorem State.draw_chan (s : State) (k : Channel) : (s.draw).chan k = s.chan k := rfl

@[simp] theorem State.setTimer_lcdChan (s : State) (v : Timer) (k : LcdCh) : (s.setTimer v).lcdChan k = s.lcdChan k := rfl
@[simp] theorem State.setIntc_lcdChan (s : State) (v : Intc) (k : LcdCh) : (s.setIntc v).lcdChan k = s.lcdChan k := rfl
@[simp] theorem State.setMem_lcdChan (s : State) (v : Image) (k : LcdCh) : (s.setMem v).lcdChan k = s.lcdChan k := rfl
@[simp] theorem State.answer_lcdChan (s : State) (v : Option Word) (k : LcdCh) : (s.answer v).lcdChan k = s.lcdChan k := rfl
@[simp] theorem State.emit_lcdChan (s : State) (e : OutEvent) (k : LcdCh) : (s.emit e).lcdChan k = s.lcdChan k := rfl
@[simp] theorem State.setIrqp_lcdChan (s : State) (v : BitVec 16) (k : LcdCh) : (s.setIrqp v).lcdChan k = s.lcdChan k := rfl
@[simp] theorem State.setChan_lcdChan (s : State) (ch : Channel) (c : DmaChannel) (k : LcdCh) : (s.setChan ch c).lcdChan k = s.lcdChan k := rfl
@[simp] theorem State.setBank_lcdChan (s : State) (b : Bank) (g : GpioBank) (k : LcdCh) : (s.setBank b g).lcdChan k = s.lcdChan k := rfl
@[simp] theorem State.draw_lcdChan (s : State) (k : LcdCh) : (s.draw).lcdChan k = s.lcdChan k := rfl

@[simp] theorem State.setTimer_bank (s : State) (v : Timer) (k : Bank) : (s.setTimer v).bank k = s.bank k := rfl
@[simp] theorem State.setIntc_bank (s : State) (v : Intc) (k : Bank) : (s.setIntc v).bank k = s.bank k := rfl
@[simp] theorem State.setLcd_bank (s : State) (v : Lcd) (k : Bank) : (s.setLcd v).bank k = s.bank k := rfl
@[simp] theorem State.setMem_bank (s : State) (v : Image) (k : Bank) : (s.setMem v).bank k = s.bank k := rfl
@[simp] theorem State.answer_bank (s : State) (v : Option Word) (k : Bank) : (s.answer v).bank k = s.bank k := rfl
@[simp] theorem State.emit_bank (s : State) (e : OutEvent) (k : Bank) : (s.emit e).bank k = s.bank k := rfl
@[simp] theorem State.setIrqp_bank (s : State) (v : BitVec 16) (k : Bank) : (s.setIrqp v).bank k = s.bank k := rfl
@[simp] theorem State.setChan_bank (s : State) (ch : Channel) (c : DmaChannel) (k : Bank) : (s.setChan ch c).bank k = s.bank k := rfl
@[simp] theorem State.setLcdChan_bank (s : State) (n : LcdCh) (c : LcdChannel) (k : Bank) : (s.setLcdChan n c).bank k = s.bank k := rfl
@[simp] theorem State.draw_bank (s : State) (k : Bank) : (s.draw).bank k = s.bank k := rfl

@[simp] theorem intcUpdate_timer (s : State) : (intcUpdate s).timer = s.timer := rfl
@[simp] theorem intcUpdate_dma (s : State) : (intcUpdate s).dma = s.dma := rfl
@[simp] theorem intcUpdate_lcd (s : State) : (intcUpdate s).lcd = s.lcd := rfl
@[simp] theorem intcUpdate_gpio (s : State) : (intcUpdate s).gpio = s.gpio := rfl
@[simp] theorem intcUpdate_mem (s : State) : (intcUpdate s).mem = s.mem := rfl
@[simp] theorem intcUpdate_trace (s : State) : (intcUpdate s).trace = s.trace := rfl
@[simp] theorem intcUpdate_rdata (s : State) : (intcUpdate s).rdata = s.rdata := rfl
@[simp] theorem intcUpdate_inbox (s : State) : (intcUpdate s).inbox = s.inbox := rfl
@[simp] theorem intcUpdate_draws (s : State) : (intcUpdate s).draws = s.draws := rfl
@[simp] theorem intcUpdate_icmr (s : State) : (intcUpdate s).intc.icmr = s.intc.icmr := rfl
@[simp] theorem intcUpdate_iclr (s : State) : (intcUpdate s).intc.iclr = s.intc.iclr := rfl
@[simp] theorem intcUpdate_icpr (s : State) : (intcUpdate s).intc.icpr = sources s := rfl
@[simp] theorem intcUpdate_chan (s : State) (k : Channel) : (intcUpdate s).chan k = s.chan k := rfl
@[simp] theorem intcUpdate_lcdChan (s : State) (k : LcdCh) : (intcUpdate s).lcdChan k = s.lcdChan k := rfl
@[simp] theorem intcUpdate_bank (s : State) (k : Bank) : (intcUpdate s).bank k = s.bank k := rfl

@[simp] theorem advanceTime_intc (s : State) : (advanceTime s).intc = s.intc := rfl
@[simp] theorem advanceTime_gpio (s : State) : (advanceTime s).gpio = s.gpio := rfl
@[simp] theorem advanceTime_mem (s : State) : (advanceTime s).mem = s.mem := rfl
@[simp] theorem advanceTime_trace (s : State) : (advanceTime s).trace = s.trace := rfl
@[simp] theorem advanceTime_rdata (s : State) : (advanceTime s).rdata = s.rdata := rfl
@[simp] theorem advanceTime_inbox (s : State) : (advanceTime s).inbox = s.inbox := rfl
@[simp] theorem advanceTime_draws (s : State) : (advanceTime s).draws = s.draws := rfl
@[simp] theorem advanceTime_timer (s : State) : (advanceTime s).timer = countTick s.timer := rfl
@[simp] theorem advanceTime_irqp (s : State) : (advanceTime s).dma.irqp = s.dma.irqp := rfl
@[simp] theorem advanceTime_lcden (s : State) : (advanceTime s).lcd.lcden = s.lcd.lcden := rfl
@[simp] theorem advanceTime_lpp (s : State) : (advanceTime s).lcd.lpp = s.lcd.lpp := rfl
@[simp] theorem advanceTime_pcd (s : State) : (advanceTime s).lcd.pcd = s.lcd.pcd := rfl
@[simp] theorem advanceTime_eof (s : State) : (advanceTime s).lcd.eof = s.lcd.eof := rfl
@[simp] theorem advanceTime_bs (s : State) : (advanceTime s).lcd.bs = s.lcd.bs := rfl
@[simp] theorem advanceTime_palette (s : State) : (advanceTime s).lcd.palette = s.lcd.palette := rfl
@[simp] theorem advanceTime_chan (s : State) (ch : Channel) : (advanceTime s).chan ch = countDownDma (s.chan ch) := by
  simp [State.chan, advanceTime]
@[simp] theorem advanceTime_lcdChan (s : State) (n : LcdCh) :
    (advanceTime s).lcdChan n = countDownLcd (s.lcd.lcden.getLsbD n) (s.lcdChan n) := by
  simp [State.lcdChan, advanceTime]

end Sys2Proof.Machine
end

