-- ==== Sys2Proof/Laws/Operands.lean ====
section
/-! SUPPORT. The operand forms bit by bit: the lane mask, the lane-masked writes, single-bit updates. -/

namespace Sys2Proof.Machine

/-- The lane mask, bit by bit (R102). -/
theorem laneMask_bit (be : Lanes) (k : Nat) (hk : k < 32) : (laneMask be).getLsbD k = laneOn be k := by
  revert k
  have : ∀ be : Lanes, ∀ k : Fin 32, (laneMask be).getLsbD k = laneOn be k := by decide +kernel
  exact fun k hk => this be ⟨k, hk⟩

@[simp] theorem laneMask_zero : laneMask 0#4 = 0#32 := by decide

/-- `merge`, bit by bit (R11). -/
theorem merge_bit (old d m w : Word) (k : Nat) (hk : k < 32) :
    (merge old d m w).getLsbD k = if m.getLsbD k && w.getLsbD k then d.getLsbD k else old.getLsbD k := by
  simp only [merge, BitVec.getLsbD_or, BitVec.getLsbD_and, BitVec.getLsbD_not, hk]
  cases m.getLsbD k <;> cases w.getLsbD k <;> simp

/-- `w1c`, bit by bit (R11). -/
theorem w1c_bit (old d m w : Word) (k : Nat) (hk : k < 32) :
    (w1c old d m w).getLsbD k = (old.getLsbD k && !(d.getLsbD k && m.getLsbD k && w.getLsbD k)) := by
  simp [w1c, hk]

theorem wAll_bit (k : Nat) (hk : k < 32) : wAll.getLsbD k = true := by
  have : ∀ k : Fin 32, wAll.getLsbD k = true := by decide
  exact this ⟨k, hk⟩

/-- A lane-masked write of the writable bits w of a register is `Merged`. -/
theorem merge_merged (old d w : Word) (be : Lanes) : Merged old (merge old d (laneMask be) w) d w be := by
  intro k hk
  rw [merge_bit _ _ _ _ _ hk, laneMask_bit be k hk]

/-- A lane-masked write of a whole register is `Merged`. -/
theorem mergeAll_merged (old d : Word) (be : Lanes) : Merged old (mergeAll old be d) d wAll be :=
  merge_merged old d wAll be

/-- A write-one-to-clear is `ClearedByOnes`. -/
theorem w1c_cleared (old d w : Word) (be : Lanes) : ClearedByOnes old (w1c old d (laneMask be) w) d w be := by
  intro k hk
  rw [w1c_bit _ _ _ _ _ hk, laneMask_bit be k hk]
  cases old.getLsbD k <;> cases d.getLsbD k <;> cases laneOn be k <;> cases w.getLsbD k <;> rfl

@[simp] theorem merge_zero (old d w : Word) : merge old d 0#32 w = old := by
  unfold merge
  rw [BitVec.zero_and, BitVec.and_zero, BitVec.zero_and, BitVec.or_zero, BitVec.not_zero, BitVec.and_allOnes]

@[simp] theorem mergeAll_zero (old d : Word) : mergeAll old 0#4 d = old := by simp [mergeAll]

@[simp] theorem w1c_zero (old d w : Word) : w1c old d 0#32 w = old := by
  unfold w1c
  rw [BitVec.and_zero, BitVec.zero_and, BitVec.not_zero, BitVec.and_allOnes]

/-- Setting a bit, bit by bit. -/
theorem setBit_bit {w : Nat} (v : BitVec w) (k j : Nat) :
    (setBit v k).getLsbD j = (v.getLsbD j || (decide (j < w) && decide (j = k))) := by
  by_cases hj : j < w
  · by_cases h : j = k <;> simp [setBit, BitVec.getLsbD_or, BitVec.getLsbD_twoPow, hj, h]
  · simp [setBit, BitVec.getLsbD_or, BitVec.getLsbD_twoPow, hj]; omega

/-- Clearing a bit, bit by bit. -/
theorem clearBit_bit {w : Nat} (v : BitVec w) (k j : Nat) :
    (clearBit v k).getLsbD j = (v.getLsbD j && !decide (j = k)) := by
  by_cases hj : j < w
  · by_cases h : j = k
    · subst h; simp [clearBit, hj]
    · simp [clearBit, hj, h]
  · simp [BitVec.getLsbD_of_ge _ _ (Nat.le_of_not_lt hj)]

/-- Putting a bit, bit by bit. -/
theorem putBit_bit {w : Nat} (v : BitVec w) (k j : Nat) (b : Bool) (hk : k < w) :
    (putBit v k b).getLsbD j = if j = k then b else v.getLsbD j := by
  cases b
  · by_cases h : j = k <;> simp [putBit, clearBit_bit, h]
  · by_cases h : j = k <;> simp [putBit, setBit_bit, h, hk]

/-- `b << k`, bit by bit. -/
theorem bitAt_bit (k j : Nat) (b : Bool) (hj : j < 32) : (bitAt k b).getLsbD j = (b && decide (j = k)) := by
  cases b
  · simp [bitAt]
  · by_cases h : j = k <;> simp [bitAt, BitVec.getLsbD_twoPow, h, hj, eq_comm]; omega

/-- Bits outside a word are 0. -/
theorem bit_high {w : Nat} (v : BitVec w) (k : Nat) (hk : ¬k < w) : v.getLsbD k = false :=
  BitVec.getLsbD_of_ge v k (Nat.le_of_not_lt hk)

end Sys2Proof.Machine
end

