-- ==== Sys2Proof/Laws/Lines.lean ====
section
/-! SUPPORT. What `IntcUpdate` leaves: every bit of ICPR is its source's level, and each line is the OR of R235. -/

namespace Sys2Proof.Machine

/-- A word is not 0 exactly when it has a bit (used for the ORs of R235 and R243). -/
theorem ne_zero_iff_bit {w : Nat} (v : BitVec w) : (v != 0) = true ↔ ∃ k, v.getLsbD k = true := by
  constructor
  · intro h
    by_contra hn
    have : v = 0 := BitVec.eq_of_getLsbD_eq fun i _ => by
      simpa using fun e => hn ⟨i, e⟩
    simp [this] at h
  · rintro ⟨k, hk⟩
    rw [bne_iff_ne]
    rintro rfl
    simp at hk

/-- `SOURCES(state)`, bit by bit (R243). -/
theorem sources_bit (s : State) (k : Nat) (hk : k < 32) :
    (sources s).getLsbD k =
      ((gpioPinSource s.gpio 0 && decide (k = 8)) || (gpioPinSource s.gpio 1 && decide (k = 9)) ||
        (gpioRestSource s.gpio && decide (k = 10)) || (lcdSource s.lcd && decide (k = 17)) ||
        (dmaSource s.dma && decide (k = 25)) || (timerSource s.timer 0 && decide (k = 26)) ||
        (timerSource s.timer 1 && decide (k = 27)) || (timerSource s.timer 2 && decide (k = 28)) ||
        (timerSource s.timer 3 && decide (k = 29))) := by
  simp only [sources, BitVec.getLsbD_or, bitAt_bit _ _ _ hk]

/-- The GPIO source of pins 2 to 95 is high exactly when one of their latches is set (R317). -/
theorem gpioRestSource_iff (s : State) : gpioRestSource s.gpio = true ↔ SourceHigh s 10 := by
  have h2 : ∀ p, ((s.gpio[0]).gedr &&& 0xFFFFFFFC).getLsbD p = true ↔ 2 ≤ p ∧ (s.gpio[0]).gedr.getLsbD p = true := by
    intro p
    have hm : ∀ q : Fin 32, (0xFFFFFFFC#32).getLsbD q = decide (2 ≤ q.val) := by decide
    rw [BitVec.getLsbD_and]
    by_cases hp : p < 32
    · rw [show BitVec.getLsbD 4294967292 p = decide (2 ≤ p) from hm ⟨p, hp⟩]; simp [and_comm]
    · simp [bit_high _ _ hp]
  simp only [gpioRestSource, Bool.or_eq_true, ne_zero_iff_bit, h2, or_assoc]
  exact Iff.rfl

/-- The DMA source is high exactly when a channel's raw-pending bit is set (R170). -/
theorem dmaSource_iff (s : State) : dmaSource s.dma = true ↔ SourceHigh s 25 := by
  simp only [dmaSource, ne_zero_iff_bit]
  constructor
  · rintro ⟨k, hk⟩
    by_cases h : k < 16
    · exact ⟨⟨k, h⟩, hk⟩
    · simp [bit_high _ _ h] at hk
  · rintro ⟨ch, h⟩
    exact ⟨ch, h⟩

/-- ICPR after `SetSources`, source by source (R234, R243). -/
theorem sources_iff (s : State) (k : Nat) : (sources s).getLsbD k = true ↔ SourceHigh s k := by
  by_cases hk : k < 32
  · rw [sources_bit s k hk]
    have h10 := gpioRestSource_iff s
    have h25 := dmaSource_iff s
    interval_cases k <;>
      simp [h10, h25, gpioPinSource, lcdSource, timerSource, SourceHigh, State.bank]
  · rw [bit_high _ _ hk]
    have : ¬ SourceHigh s k := by
      unfold SourceHigh
      split <;> first | omega | exact id
    simp [this]

/-- A state whose raw bits and lines are those of R234 and R235 is settled. -/
theorem settled_of (s : State) (h1 : SourcesLatched s) (h2 : LinesDriven s) : Settled s := by
  obtain ⟨hi, hf⟩ := h2
  refine ⟨fun k => ?_, ?_, ?_⟩
  · rw [h1, sources_iff]
  · rw [hi, ne_zero_iff_bit]
    refine exists_congr fun k => ?_
    by_cases hk : k < 32
    · simp [icipView, hk, and_assoc]
    · simp [icipView, hk, bit_high s.intc.icpr k hk]
  · rw [hf, ne_zero_iff_bit]
    refine exists_congr fun k => ?_
    simp [icfpView, and_assoc]

theorem intcUpdate_latched (s : State) : SourcesLatched (intcUpdate s) := rfl

theorem intcUpdate_driven (s : State) : LinesDriven (intcUpdate s) := ⟨rfl, rfl⟩

/-- Every `IntcUpdate` settles the controller (R140, R245). -/
theorem intcUpdate_settled (s : State) : Settled (intcUpdate s) :=
  settled_of _ (intcUpdate_latched s) (intcUpdate_driven s)

/-- On a settled state with the invariant's clauses (c) and (d), `IntcUpdate` changes nothing. -/
theorem intcUpdate_of_latched (s : State) (h1 : SourcesLatched s) (h2 : LinesDriven s) : intcUpdate s = s := by
  obtain ⟨hi, hf⟩ := h2
  unfold SourcesLatched at h1
  unfold intcUpdate State.setIntc recompute
  rw [← h1]
  have : s.intc = { s.intc with irqLine := icipView s.intc != 0, fiqLine := icfpView s.intc != 0 } := by
    rw [← hi, ← hf]
  exact congrArg (fun i => { s with intc := i }) this.symm

end Sys2Proof.Machine
end

