-- ==== Sys2Proof/Laws/Access.lean ====
section
/-! SUPPORT. What the two shapes of an access can do, said once (40_dispatcher.md R130, R133, R136), and the frames of a
write whose effect replaces one unit, one channel or one bank. -/

namespace Sys2Proof.Machine

/-- A read answers the word and leaves the rest. -/
theorem readAccess_spec {v : Word} {s t : State} (h : readAccess v s = .next t) : t = s.answer (some v) :=
  (Host.Outcome.next.inj h).symm

/-- A write does nothing without a lane, else its effect and then `IntcUpdate`. -/
theorem writeAccess_spec {be : Lanes} {f : State → State} {s t : State} (h : writeAccess be f s = .next t) :
    (be = 0 ∧ t = s.answer none) ∨ (be ≠ 0 ∧ t = intcUpdate (f (s.answer none))) := by
  have h : afterWrite be f s = t := Host.Outcome.next.inj h
  unfold afterWrite at h
  split at h
  · next hb => exact .inl ⟨hb, h.symm⟩
  · next hb => exact .inr ⟨hb, h.symm⟩

/-- Without a lane a write leaves the state (R133). -/
@[simp] theorem afterWrite_noLane (f : State → State) (s : State) : afterWrite 0#4 f s = s.answer none := rfl

/-- With a lane a write has its effect and settles (R130). -/
theorem afterWrite_lane {be : Lanes} (hb : be ≠ 0) (f : State → State) (s : State) :
    afterWrite be f s = intcUpdate (f (s.answer none)) := by
  simp only [afterWrite, hb, if_false]

/-- A property that the state without a lane has, and that the effect establishes and `IntcUpdate` keeps, holds after a
write. -/
theorem afterWrite_cases {P : State → Prop} {be : Lanes} {f : State → State} {s : State}
    (h0 : be = 0 → P (s.answer none)) (h1 : be ≠ 0 → P (intcUpdate (f (s.answer none)))) : P (afterWrite be f s) := by
  unfold afterWrite
  split
  · next hb => exact h0 hb
  · next hb => exact h1 hb

/-- What a write that leaves ICMR and ICLR does to the interrupt controller. -/
theorem afterWrite_intcFollows {be : Lanes} {f : State → State} {s : State} (h : (f (s.answer none)).intc = s.intc) :
    IntcFollows be s (afterWrite be f s) := by
  refine afterWrite_cases (fun hb => ⟨rfl, rfl, fun h => absurd hb h, fun _ => rfl⟩) fun hb => ⟨?_, ?_, ?_, ?_⟩
  · simp [h]
  · simp [h]
  · exact fun _ => intcUpdate_settled _
  · exact fun h => absurd h hb

/-- An image is the same as itself. -/
theorem SameImage.of_eq {m m' : Image} (h : m' = m) : SameImage m m' := ⟨h, fun a => by rw [h]⟩

/-- The memory image after a write whose effect leaves the image m. -/
theorem afterWrite_image {be : Lanes} {f : State → State} {s : State} {m : Image} (h0 : be = 0 → m = s.mem)
    (h : (f (s.answer none)).mem = m) : SameImage m (afterWrite be f s).mem :=
  afterWrite_cases (P := fun t => SameImage m t.mem) (fun hb => .of_eq (h0 hb).symm) fun _ => .of_eq h

/-- The memory image after a write whose effect leaves it. -/
theorem afterWrite_sameMem {be : Lanes} {f : State → State} {s : State} (h : (f (s.answer none)).mem = s.mem) :
    SameMem s (afterWrite be f s) := afterWrite_image (fun _ => rfl) h

/-- The model's own fields after a write whose effect leaves them. -/
theorem afterWrite_own {be : Lanes} {f : State → State} {s : State} (h1 : (f (s.answer none)).rdata = none)
    (h2 : (f (s.answer none)).inbox = s.inbox) (h3 : (f (s.answer none)).draws = s.draws) :
    OwnAfterWrite s (afterWrite be f s) :=
  afterWrite_cases (fun _ => ⟨rfl, rfl, rfl⟩) fun _ => ⟨h1, h2, h3⟩

/-- A write whose effect replaces the timer unit touches only the timer unit. -/
theorem afterWrite_onlyTimer (be : Lanes) (g : State → Timer) (s : State) :
    OnlyTimer be s (afterWrite be (fun s => s.setTimer (g s)) s) where
  dma := afterWrite_cases (P := fun t => t.dma = s.dma) (fun _ => rfl) fun _ => rfl
  lcd := afterWrite_cases (P := fun t => t.lcd = s.lcd) (fun _ => rfl) fun _ => rfl
  gpio := afterWrite_cases (P := fun t => t.gpio = s.gpio) (fun _ => rfl) fun _ => rfl
  trace := afterWrite_cases (P := fun t => t.trace = s.trace) (fun _ => rfl) fun _ => rfl
  mem := afterWrite_sameMem rfl
  own := afterWrite_own rfl rfl rfl
  intc := afterWrite_intcFollows rfl

/-- A write whose effect replaces one DMA channel, and perhaps the memory image, touches only these. -/
theorem afterWrite_onlyChannel (ch : Channel) (be : Lanes) (f : State → State) (g : State → DmaChannel) (s : State)
    (m : Image) (h0 : be = 0 → m = s.mem)
    (h : f (s.answer none) = ((s.answer none).setChan ch (g (s.answer none))).setMem m) :
    OnlyChannel ch be s m (afterWrite be f s) where
  others := fun c hc => afterWrite_cases (P := fun t => t.chan c = s.chan c) (fun _ => rfl) fun _ => by
    rw [h, intcUpdate_chan, State.setMem_chan, State.setChan_chan_other _ _ hc]; rfl
  irqp := afterWrite_cases (P := fun t => t.dma.irqp = s.dma.irqp) (fun _ => rfl) fun _ => by rw [h]; rfl
  timer := afterWrite_cases (P := fun t => t.timer = s.timer) (fun _ => rfl) fun _ => by rw [h]; rfl
  lcd := afterWrite_cases (P := fun t => t.lcd = s.lcd) (fun _ => rfl) fun _ => by rw [h]; rfl
  gpio := afterWrite_cases (P := fun t => t.gpio = s.gpio) (fun _ => rfl) fun _ => by rw [h]; rfl
  trace := afterWrite_cases (P := fun t => t.trace = s.trace) (fun _ => rfl) fun _ => by rw [h]; rfl
  mem := afterWrite_image h0 (by rw [h]; rfl)
  own := afterWrite_own (by rw [h]; rfl) (by rw [h]; rfl) (by rw [h]; rfl)
  intc := afterWrite_intcFollows (by rw [h]; rfl)

/-- A write whose effect replaces the LCD controller, and perhaps the memory image, touches only these. -/
theorem afterWrite_onlyLcd (be : Lanes) (f : State → State) (g : State → Lcd) (s : State) (m : Image)
    (h0 : be = 0 → m = s.mem) (h : f (s.answer none) = ((s.answer none).setLcd (g (s.answer none))).setMem m) :
    OnlyLcd be s m (afterWrite be f s) where
  timer := afterWrite_cases (P := fun t => t.timer = s.timer) (fun _ => rfl) fun _ => by rw [h]; rfl
  dma := afterWrite_cases (P := fun t => t.dma = s.dma) (fun _ => rfl) fun _ => by rw [h]; rfl
  gpio := afterWrite_cases (P := fun t => t.gpio = s.gpio) (fun _ => rfl) fun _ => by rw [h]; rfl
  trace := afterWrite_cases (P := fun t => t.trace = s.trace) (fun _ => rfl) fun _ => by rw [h]; rfl
  mem := afterWrite_image h0 (by rw [h]; rfl)
  own := afterWrite_own (by rw [h]; rfl) (by rw [h]; rfl) (by rw [h]; rfl)
  intc := afterWrite_intcFollows (by rw [h]; rfl)

/-- A write whose effect replaces one GPIO bank, and perhaps appends to the trace, touches only that bank. -/
theorem afterWrite_onlyBank (b : Bank) (be : Lanes) (f : State → State) (s : State)
    (h : ∃ g tr, f (s.answer none) = { (s.answer none).setBank b g with trace := tr }) :
    OnlyBank b be s (afterWrite be f s) := by
  obtain ⟨g, tr, h⟩ := h
  exact {
    others := fun c hc => afterWrite_cases (P := fun t => t.bank c = s.bank c) (fun _ => rfl) fun _ => by
      rw [h, intcUpdate_bank]; exact State.setBank_bank_other _ _ hc
    timer := afterWrite_cases (P := fun t => t.timer = s.timer) (fun _ => rfl) fun _ => by rw [h]; rfl
    dma := afterWrite_cases (P := fun t => t.dma = s.dma) (fun _ => rfl) fun _ => by rw [h]; rfl
    lcd := afterWrite_cases (P := fun t => t.lcd = s.lcd) (fun _ => rfl) fun _ => by rw [h]; rfl
    mem := afterWrite_sameMem (by rw [h]; rfl)
    own := afterWrite_own (by rw [h]; rfl) (by rw [h]; rfl) (by rw [h]; rfl)
    intc := afterWrite_intcFollows (by rw [h]; rfl) }

/-- A write whose effect replaces the interrupt controller touches only the interrupt controller. -/
theorem afterWrite_onlyIntc (be : Lanes) (g : State → Intc) (s : State) :
    OnlyIntc be s (afterWrite be (fun s => s.setIntc (g s)) s) where
  timer := afterWrite_cases (P := fun t => t.timer = s.timer) (fun _ => rfl) fun _ => rfl
  dma := afterWrite_cases (P := fun t => t.dma = s.dma) (fun _ => rfl) fun _ => rfl
  lcd := afterWrite_cases (P := fun t => t.lcd = s.lcd) (fun _ => rfl) fun _ => rfl
  gpio := afterWrite_cases (P := fun t => t.gpio = s.gpio) (fun _ => rfl) fun _ => rfl
  trace := afterWrite_cases (P := fun t => t.trace = s.trace) (fun _ => rfl) fun _ => rfl
  mem := afterWrite_sameMem rfl
  own := afterWrite_own rfl rfl rfl
  settled := fun hb => by rw [afterWrite_lane hb]; exact intcUpdate_settled _
  still := fun hb => by subst hb; rfl

end Sys2Proof.Machine
end

