-- ==== Sys2Proof/Laws/Decode.lean ====
section
/-! SUPPORT. What the decoder answers, said once: the row of the register map that takes a command, or UNMAPPED
(30_encoding.md R105). Later proofs cite these, with the row's place evaluated by the kernel, and never unfold the table. -/

namespace Sys2Proof

/-- The element at the place where a search stops is what the search finds. -/
theorem find_of_index {α : Type} {p : α → Bool} {l : List α} {k : Nat} {x : α} (h : l[k]? = some x)
    (hk : l.findIdx p = k) : l.find? p = some x := by
  subst hk
  rwa [List.find?_eq_getElem?_findIdx]

/-- A command that row k is the first to take decodes to that row's instruction. -/
theorem decode_of_hit {c : Cmd} {be : Lanes} {d : Word} (k : Nat) {r : Row} (h : namedRows[k]? = some r)
    (hk : namedRows.findIdx (fun r => r.hits c) = k) : decode ⟨c, be, d⟩ = r.build c be d := by
  simp only [decode, find_of_index h hk]

/-- A command that no row takes decodes to the UNMAPPED row of its direction. -/
theorem decode_of_no_hit {c : Cmd} {be : Lanes} {d : Word} (h : namedRows.all (fun r => !r.hits c) = true) :
    decode ⟨c, be, d⟩ =
      if cmdIsWrite c then .wrUnmapped (cmdWordOffset c) be d else .rdUnmapped (cmdWordOffset c) be := by
  have : namedRows.find? (fun r => r.hits c) = none := by simpa using h
  simp only [decode, this]

end Sys2Proof
end

