-- ==== Sys2Proof/Laws/Memory.lean ====
section
/-! SUPPORT. The laws of the memory image, said once. Plain memory: a read after a write gives the value written, a write
leaves every other address alone, every operation keeps the canonical form, a read changes nothing. A port: a read takes
the next answer, a write is handed over, and plain memory is not touched. -/

namespace Sys2Proof.Machine

/-! ## The plain memory -/

theorem Memory.lookup_put (m : Memory) (a k : Nat) (v : Byte) :
    Memory.lookup (Memory.put a v m) k = if k = a then some v else Memory.lookup m k := by
  induction m with
  | nil => simp [Memory.put, Memory.lookup, eq_comm]
  | cons c rest ih =>
    obtain ⟨j, b⟩ := c
    simp only [Memory.put]
    split
    · simp [Memory.lookup, eq_comm]
    · split
      · next h => subst h; by_cases hk : k = a <;> simp [Memory.lookup, hk, Ne.symm]
      · next h =>
        simp only [Memory.lookup, ih]
        by_cases hk : k = a
        · subst hk; simp [Ne.symm h]
        · simp [hk]

/-- The canonical form, its clauses as propositions. -/
theorem Memory.wf_cons (c : Host.Cell) (rest : Memory) :
    Memory.wf (c :: rest) = true ↔ (c.1 < 2 ^ 32 ∧ ∀ x ∈ rest, c.1 < x.1) ∧ Memory.wf rest = true := by
  obtain ⟨j, b⟩ := c
  simp [Memory.wf]

theorem Memory.mem_put {m : Memory} {a : Nat} {v : Byte} {c : Host.Cell} (h : c ∈ Memory.put a v m) :
    c = (a, v) ∨ c ∈ m := by
  induction m with
  | nil => simpa [Memory.put] using h
  | cons x rest ih =>
    obtain ⟨j, b⟩ := x
    simp only [Memory.put] at h
    split at h
    · simpa using h
    · split at h
      · rcases List.mem_cons.1 h with rfl | h
        · simp
        · exact Or.inr (List.mem_cons_of_mem _ h)
      · rcases List.mem_cons.1 h with rfl | h
        · simp
        · rcases ih h with rfl | h
          · simp
          · exact Or.inr (List.mem_cons_of_mem _ h)

/-- A write of one cell keeps the canonical form. -/
theorem Memory.wf_put {m : Memory} {a : Nat} (v : Byte) (ha : a < 2 ^ 32) (h : Memory.wf m = true) :
    Memory.wf (Memory.put a v m) = true := by
  induction m with
  | nil => simpa [Memory.put, Memory.wf] using ha
  | cons c rest ih =>
    obtain ⟨j, b⟩ := c
    rw [Memory.wf_cons] at h
    obtain ⟨⟨h1, h2⟩, h3⟩ := h
    simp only [Memory.put]
    split
    · next hlt =>
      rw [Memory.wf_cons, Memory.wf_cons]
      refine ⟨⟨ha, fun x hx => ?_⟩, ⟨h1, h2⟩, h3⟩
      rcases List.mem_cons.1 hx with rfl | hx
      · exact hlt
      · exact Nat.lt_trans hlt (h2 x hx)
    · split
      · next he => subst he; rw [Memory.wf_cons]; exact ⟨⟨ha, h2⟩, h3⟩
      · next hge hne =>
        rw [Memory.wf_cons]
        refine ⟨⟨h1, fun x hx => ?_⟩, ih h3⟩
        rcases Memory.mem_put hx with rfl | hx
        · show j < a; omega
        · exact h2 x hx

/-- The environment's writes keep the canonical form. -/
theorem Memory.wf_putBytes {m : Memory} (a : Word) (bs : List Byte) (h : Memory.wf m = true) :
    Memory.wf (Memory.putBytes a bs m) = true := by
  induction bs generalizing m a with
  | nil => exact h
  | cons b rest ih => exact ih _ (Memory.wf_put _ a.isLt h)

/-- The reset memory image is canonical. -/
theorem State.reset_mem_wf : Memory.wf State.reset.mem.cells = true := rfl

/-! ## One access -/

@[simp] theorem readByte_plain {m : Image} {a : Word} (h : m.isPort a = false) : readByte m a = plainByte m a := by
  simp [readByte, h]

@[simp] theorem afterRead_plain {m : Image} {a : Word} (h : m.isPort a = false) : afterRead m a = m := by
  simp [afterRead, h]

/-- A read never touches the plain memory. -/
@[simp] theorem afterRead_cells (m : Image) (a : Word) : (afterRead m a).cells = m.cells := by
  unfold afterRead; split <;> rfl

@[simp] theorem afterRead_ports (m : Image) (a : Word) : (afterRead m a).ports = m.ports := by
  unfold afterRead; split <;> rfl

@[simp] theorem writeByte_ports (m : Image) (a : Word) (v : Byte) : (writeByte m a v).ports = m.ports := by
  unfold writeByte; split <;> rfl

/-- Where the ports are decides which addresses are ports. -/
theorem Image.isPort_congr {m m' : Image} (h : m'.ports = m.ports) (a : Word) : m'.isPort a = m.isPort a := by
  simp only [Image.isPort, h]

@[simp] theorem afterRead_isPort (m : Image) (a k : Word) : (afterRead m a).isPort k = m.isPort k :=
  Image.isPort_congr (afterRead_ports m a) k

@[simp] theorem writeByte_isPort (m : Image) (a k : Word) (v : Byte) : (writeByte m a v).isPort k = m.isPort k :=
  Image.isPort_congr (writeByte_ports m a v) k

@[simp] theorem afterRead_plainByte (m : Image) (a k : Word) : plainByte (afterRead m a) k = plainByte m k := by
  simp only [plainByte, afterRead_cells]

/-- What a byte of plain memory is after a write, said once. -/
theorem plainByte_writeByte (m : Image) (a k : Word) (v : Byte) :
    plainByte (writeByte m a v) k = if k = a ∧ m.isPort a = false then v else plainByte m k := by
  have hk : k.toNat = a.toNat ↔ k = a := BitVec.toNat_inj
  unfold writeByte
  cases h : m.isPort a
  · simp only [plainByte, Bool.false_eq_true, if_false]
    rw [Memory.lookup_put]
    by_cases e : k = a <;> simp [e, hk]
  · simp [plainByte]

theorem plainByte_writeByte_other (m : Image) {a k : Word} (v : Byte) (h : k ≠ a) :
    plainByte (writeByte m a v) k = plainByte m k := by
  simp [plainByte_writeByte, h]

/-- A byte write keeps the canonical form. -/
theorem wf_writeByte {m : Image} (a : Word) (v : Byte) (h : Memory.wf m.cells = true) :
    Memory.wf (writeByte m a v).cells = true := by
  unfold writeByte
  split
  · exact h
  · exact Memory.wf_put _ a.isLt h

/-- A read at a port takes the first answer of the environment's script. -/
theorem readByte_port {m : Image} {a : Word} {v : Byte} {rest : List Byte} (h : m.isPort a = true)
    (hv : m.answers = v :: rest) : readByte m a = v := by
  simp [readByte, h, portAnswer, hv]

/-- Its effect: the answer is used up, and the environment has learnt of the read. -/
theorem afterRead_port {m : Image} {a : Word} (h : m.isPort a = true) :
    afterRead m a = { m with answers := m.answers.tail, log := m.log ++ [.read a (readByte m a)] } := by
  simp [afterRead, readByte, h]

/-- A write at a port: the environment has learnt of it, and nothing else. -/
theorem writeByte_port {m : Image} {a : Word} (v : Byte) (h : m.isPort a = true) :
    writeByte m a v = { m with log := m.log ++ [.write a v] } := by
  simp [writeByte, h]

/-! ## Runs of reads -/

@[simp] theorem runBytes_length (n : Nat) (a : Word) (m : Image) : (runBytes n a m).length = n := by
  induction n generalizing a m with
  | zero => rfl
  | succ n ih => simp [runBytes, ih]

@[simp] theorem runImage_cells (n : Nat) (a : Word) (m : Image) : (runImage n a m).cells = m.cells := by
  induction n generalizing a m with
  | zero => rfl
  | succ n ih => simp [runImage, ih]

@[simp] theorem runImage_ports (n : Nat) (a : Word) (m : Image) : (runImage n a m).ports = m.ports := by
  induction n generalizing a m with
  | zero => rfl
  | succ n ih => simp [runImage, ih]

@[simp] theorem runImage_plainByte (n : Nat) (a k : Word) (m : Image) : plainByte (runImage n a m) k = plainByte m k := by
  simp only [plainByte, runImage_cells]

theorem OnlyRead.refl (m : Image) : OnlyRead m m := ⟨fun _ => rfl, rfl, [], by simp, by simp⟩

theorem OnlyRead.trans {m1 m2 m3 : Image} (h : OnlyRead m1 m2) (h' : OnlyRead m2 m3) : OnlyRead m1 m3 := by
  obtain ⟨p, q, l, hl, hr⟩ := h
  obtain ⟨p', q', l', hl', hr'⟩ := h'
  refine ⟨fun a => (p' a).trans (p a), q'.trans q, l ++ l', by rw [hl', hl, List.append_assoc], fun x hx => ?_⟩
  rcases List.mem_append.1 hx with hx | hx
  · exact hr x hx
  · exact hr' x hx

theorem afterRead_onlyRead (m : Image) (a : Word) : OnlyRead m (afterRead m a) := by
  refine ⟨afterRead_plainByte m a, afterRead_ports m a, ?_⟩
  unfold afterRead
  split
  · exact ⟨_, rfl, by simp⟩
  · exact ⟨[], by simp, by simp⟩

/-- A run of reads only reads. -/
theorem runImage_onlyRead (n : Nat) (a : Word) (m : Image) : OnlyRead m (runImage n a m) := by
  induction n generalizing a m with
  | zero => exact .refl m
  | succ n ih => exact (afterRead_onlyRead m a).trans (ih _ _)

/-- The address of byte k + 1 of a run is that of byte k of the run one address later. -/
theorem run_next (a : Word) (k : Nat) : a + BitVec.ofNat 32 (k + 1) = a + 1 + BitVec.ofNat 32 k := by
  rw [Nat.add_comm k 1, BitVec.ofNat_add, ← BitVec.add_assoc]; rfl

/-- The addresses of a run but the first are those of the run from the next address. -/
theorem PlainRun.succ {m : Image} {a : Word} {n : Nat} (h : PlainRun m a (n + 1)) :
    m.isPort a = false ∧ PlainRun m (a + 1) n := by
  refine ⟨by simpa using h 0 (Nat.succ_pos n), fun k hk => ?_⟩
  rw [← run_next]; exact h (k + 1) (Nat.succ_lt_succ hk)

/-- On plain memory a run of reads gives the bytes and changes nothing (20_memory.md R73). -/
theorem run_plain {m : Image} {a : Word} {n : Nat} (h : PlainRun m a n) :
    runBytes n a m = (List.range n).map (fun k => plainByte m (a + BitVec.ofNat 32 k)) ∧ runImage n a m = m := by
  induction n generalizing a with
  | zero => exact ⟨rfl, rfl⟩
  | succ n ih =>
    obtain ⟨h0, h1⟩ := h.succ
    obtain ⟨e1, e2⟩ := ih h1
    simp only [runBytes, runImage, afterRead_plain h0, readByte_plain h0, e1, e2, and_true]
    rw [List.range_succ_eq_map]
    simp only [List.map_cons, List.map_map]
    refine List.cons_eq_cons.2 ⟨by simp, List.map_congr_left fun k _ => ?_⟩
    simp only [Function.comp, Nat.succ_eq_add_one]
    rw [run_next]

/-- On ports a run of reads takes the next answers in order, and each read is recorded at its address (R71, R79). -/
theorem run_ports {m : Image} {a : Word} {n : Nat} (h : ∀ k, k < n → m.isPort (a + BitVec.ofNat 32 k) = true)
    (hn : n ≤ m.answers.length) :
    runBytes n a m = m.answers.take n ∧
      runImage n a m = { m with
        answers := m.answers.drop n
        log := m.log ++ (List.range n).map fun k => .read (a + BitVec.ofNat 32 k) (m.answers.getD k 0) } := by
  induction n generalizing a m with
  | zero => simp [runBytes, runImage]
  | succ n ih =>
    have h0 : m.isPort a = true := by simpa using h 0 (Nat.succ_pos n)
    obtain ⟨v, rest, hv⟩ : ∃ v rest, m.answers = v :: rest := by
      cases hm : m.answers with
      | nil => rw [hm] at hn; simp at hn
      | cons v rest => exact ⟨v, rest, rfl⟩
    have ha := afterRead_port h0
    rw [readByte_port h0 hv] at ha
    obtain ⟨e1, e2⟩ := ih (a := a + 1) (m := afterRead m a)
      (fun k hk => by rw [afterRead_isPort, ← run_next]; exact h (k + 1) (Nat.succ_lt_succ hk))
      (by rw [ha, hv]; rw [hv] at hn; simpa using hn)
    simp only [runBytes, runImage]
    rw [e1, e2, readByte_port h0 hv, ha, List.range_succ_eq_map]
    refine ⟨by simp [hv], ?_⟩
    simp only [hv, List.map_cons, List.map_map, List.append_assoc, List.singleton_append, List.tail_cons,
      List.drop_succ_cons, List.getD_cons_zero, Image.mk.injEq, true_and, List.append_cancel_left_eq, List.cons.injEq]
    refine ⟨by simp, List.map_congr_left fun k _ => ?_⟩
    simpa [Function.comp] using (run_next a k).symm

/-- What a byte of plain memory is after the environment has written bytes from an address upward, said once: the last of
the bytes that fall on it, else what it was (R72, R88). -/
theorem plainByte_putBytes (m : Image) (a : Word) (bs : List Byte) :
    (∀ k v, bs[k]? = some v → (∀ j, k < j → j < bs.length → a + BitVec.ofNat 32 j ≠ a + BitVec.ofNat 32 k) →
      plainByte { m with cells := Memory.putBytes a bs m.cells } (a + BitVec.ofNat 32 k) = v) ∧
    ∀ x : Word, (∀ k, k < bs.length → x ≠ a + BitVec.ofNat 32 k) →
      plainByte { m with cells := Memory.putBytes a bs m.cells } x = plainByte m x := by
  induction bs generalizing a m with
  | nil => simp [Memory.putBytes]
  | cons b rest ih =>
    obtain ⟨e1, e2⟩ := ih { m with cells := Memory.put a.toNat b m.cells } (a + 1)
    have e0 : a + BitVec.ofNat 32 0 = a := by simp
    have hb : ∀ x, plainByte { m with cells := Memory.put a.toNat b m.cells } x = if x = a then b else plainByte m x := by
      intro x
      have hx : x.toNat = a.toNat ↔ x = a := BitVec.toNat_inj
      simp only [plainByte]
      rw [Memory.lookup_put]
      by_cases e : x = a <;> simp [e, hx]
    refine ⟨fun k v hk hj => ?_, fun x hx => ?_⟩
    · cases k with
      | zero =>
        obtain rfl : b = v := by simpa using hk
        rw [e0] at hj ⊢
        refine (e2 a fun j hjl he => ?_).trans (by rw [hb, if_pos rfl])
        exact hj (j + 1) (Nat.succ_pos j) (Nat.succ_lt_succ hjl) ((run_next a j).trans he.symm)
      | succ k =>
        rw [run_next]
        refine e1 k v (by simpa using hk) fun j h1 h2 => ?_
        rw [← run_next, ← run_next]
        exact hj (j + 1) (Nat.succ_lt_succ h1) (Nat.succ_lt_succ h2)
    · refine (e2 x fun k hk => ?_).trans ?_
      · rw [← run_next]; exact hx (k + 1) (Nat.succ_lt_succ hk)
      · rw [hb, if_neg (by simpa using hx 0 (Nat.succ_pos _))]

/-! ## Bytes read as words -/

/-- A word of four bytes is little-endian (20_memory.md R73). -/
theorem wordAt_littleEndian (bs : List Byte) (k : Nat) : LittleEndianWord bs k (wordAt bs k) := by
  have h0 := (bs.getD k 0).isLt
  have h1 := (bs.getD (k + 1) 0).isLt
  have h2 := (bs.getD (k + 2) 0).isLt
  simp only [LittleEndianWord, wordAt, BitVec.toNat_append]
  rw [← Nat.shiftLeft_add_eq_or_of_lt h0, ← Nat.shiftLeft_add_eq_or_of_lt h2, ← Nat.shiftLeft_add_eq_or_of_lt]
  · simp only [Nat.shiftLeft_eq]; omega
  · simp only [Nat.shiftLeft_eq]; omega

/-- The halves of 2 n bytes: half k is bytes 2 k and 2 k + 1, least significant first (20_memory.md R73). -/
theorem halves_getElem (n : Nat) (bs : List Byte) (h : bs.length = 2 * n) :
    (halves bs).length = n ∧ ∀ k, k < n → ∃ v, (halves bs)[k]? = some v ∧
      v.toNat = (bs.getD (2 * k) 0).toNat + 2 ^ 8 * (bs.getD (2 * k + 1) 0).toNat := by
  induction n generalizing bs with
  | zero =>
    have : bs = [] := List.length_eq_zero_iff.1 h
    subst this; exact ⟨rfl, fun k hk => absurd hk (Nat.not_lt_zero k)⟩
  | succ n ih =>
    match bs, h with
    | b0 :: b1 :: rest, h =>
      obtain ⟨hl, hk⟩ := ih rest (by simp at h; omega)
      refine ⟨by simp [halves, hl], fun k hkn => ?_⟩
      cases k with
      | zero =>
        refine ⟨b1 ++ b0, rfl, ?_⟩
        have := b0.isLt
        simp only [BitVec.toNat_append]
        rw [← Nat.shiftLeft_add_eq_or_of_lt this, Nat.shiftLeft_eq]
        simp; omega
      | succ k =>
        obtain ⟨v, hv, e⟩ := hk k (by omega)
        refine ⟨v, by simpa [halves] using hv, ?_⟩
        rw [e, show 2 * (k + 1) = 2 * k + 1 + 1 from rfl]; rfl

end Sys2Proof.Machine
end

