-- ==== Sys2Proof/Laws/Events.lean ====
section
/-! SUPPORT. What each scheduled event can do, field by field, said once: a timer match (42_timer.md R212), a DMA
completion (41_dma.md R165, R168) and an LCD end of frame (44_lcd.md R264, R276). Later proofs cite these and never unfold
the events. -/

namespace Sys2Proof.Machine

/-! ## Timer match -/

@[simp] theorem tmrFire_dma (i : Slot) (s : State) : (tmrFire i s).dma = s.dma := rfl
@[simp] theorem tmrFire_lcd (i : Slot) (s : State) : (tmrFire i s).lcd = s.lcd := rfl
@[simp] theorem tmrFire_mem (i : Slot) (s : State) : (tmrFire i s).mem = s.mem := rfl
@[simp] theorem tmrFire_trace (i : Slot) (s : State) : (tmrFire i s).trace = s.trace := rfl
@[simp] theorem tmrFire_frame (i : Slot) (s : State) : EventFrame s (tmrFire i s) := ⟨rfl, rfl, rfl, rfl, rfl⟩
@[simp] theorem tmrFire_chan (i : Slot) (s : State) (ch : Channel) : (tmrFire i s).chan ch = s.chan ch := rfl
@[simp] theorem tmrFire_lcdChan (i : Slot) (s : State) (n : LcdCh) : (tmrFire i s).lcdChan n = s.lcdChan n := rfl

/-- The timer unit after a match of slot i. -/
theorem tmrFire_timer (i : Slot) (s : State) :
    (tmrFire i s).timer = { s.timer with ossr := setBit s.timer.ossr i, armed := clearBit s.timer.armed i } := rfl

/-! ## DMA completion -/

/-- A channel after its completion, the memory image being the one after the copy (R165). -/
def completedChannel (m : Image) (c : DmaChannel) : DmaChannel :=
  if dcmdStop c.dcmd then { c with endFlag := true, run := false } else loadedChannel m { c with endFlag := true }

/-- The memory image after a completion: that of the copy, from which the next descriptor is then read unless the chain
stops (R165). -/
def completedImage (c : DmaChannel) (m : Image) : Image :=
  if dcmdStop c.dcmd then copiedImage c m else afterDescriptor (copiedImage c m) c.ddadr

/-- A stale completion has no effect (R168). -/
theorem dmaFire_idle {ch : Channel} {s : State} (h : (s.chan ch).run = false) : dmaFire ch s = s := by
  simp [dmaFire, h]

/-- The completion of a running channel in closed form (R165). -/
theorem dmaFire_eq {ch : Channel} {s : State} (h : (s.chan ch).run = true) :
    dmaFire ch s =
      { s with
        mem := completedImage (s.chan ch) s.mem
        dma :=
          { chan := s.dma.chan.set ch (completedChannel (copiedImage (s.chan ch) s.mem) (s.chan ch))
            irqp := if dcmdEndIrqEn (s.chan ch).dcmd then setBit s.dma.irqp ch else s.dma.irqp } } := by
  simp only [dmaFire, h, if_true]
  by_cases h1 : dcmdEndIrqEn (s.chan ch).dcmd = true <;> by_cases h2 : dcmdStop (s.chan ch).dcmd = true <;>
    simp only [State.chan, Fin.getElem_fin] at h1 h2 <;>
    simp [h1, h2, dmaLoad, completedChannel, completedImage, dmaCopy, State.setChan, State.setIrqp, State.setMem, State.chan]

theorem dmaFire_mem {ch : Channel} {s : State} (h : (s.chan ch).run = true) :
    (dmaFire ch s).mem = completedImage (s.chan ch) s.mem := by rw [dmaFire_eq h]

theorem dmaFire_chan_same {ch : Channel} {s : State} (h : (s.chan ch).run = true) :
    (dmaFire ch s).chan ch = completedChannel (copiedImage (s.chan ch) s.mem) (s.chan ch) := by
  rw [dmaFire_eq h]; simp [State.chan]

theorem dmaFire_chan_other {ch k : Channel} (s : State) (h : k ≠ ch) : (dmaFire ch s).chan k = s.chan k := by
  cases hr : (s.chan ch).run
  · rw [dmaFire_idle hr]
  · rw [dmaFire_eq hr]
    have : (ch : Nat) ≠ k := fun e => h (Fin.ext e.symm)
    simp [State.chan, this]

theorem dmaFire_irqp {ch : Channel} {s : State} (h : (s.chan ch).run = true) :
    (dmaFire ch s).dma.irqp = if dcmdEndIrqEn (s.chan ch).dcmd then setBit s.dma.irqp ch else s.dma.irqp := by
  rw [dmaFire_eq h]

@[simp] theorem dmaFire_timer (ch : Channel) (s : State) : (dmaFire ch s).timer = s.timer := by
  cases h : (s.chan ch).run
  · rw [dmaFire_idle h]
  · rw [dmaFire_eq h]

@[simp] theorem dmaFire_lcd (ch : Channel) (s : State) : (dmaFire ch s).lcd = s.lcd := by
  cases h : (s.chan ch).run
  · rw [dmaFire_idle h]
  · rw [dmaFire_eq h]

@[simp] theorem dmaFire_lcdChan (ch : Channel) (s : State) (n : LcdCh) : (dmaFire ch s).lcdChan n = s.lcdChan n := by
  simp [State.lcdChan]

@[simp] theorem dmaFire_trace (ch : Channel) (s : State) : (dmaFire ch s).trace = s.trace := by
  cases h : (s.chan ch).run
  · rw [dmaFire_idle h]
  · rw [dmaFire_eq h]

@[simp] theorem dmaFire_frame (ch : Channel) (s : State) : EventFrame s (dmaFire ch s) := by
  cases h : (s.chan ch).run
  · rw [dmaFire_idle h]; exact ⟨rfl, rfl, rfl, rfl, rfl⟩
  · rw [dmaFire_eq h]; exact ⟨rfl, rfl, rfl, rfl, rfl⟩

/-! ## LCD end of frame -/

/-- A channel after streaming, or unchanged by a palette load (R264, R265, R266). -/
def shownChannel (s : State) (n : LcdCh) : LcdChannel :=
  if ldcmdPal (s.lcdChan n).ldcmd then s.lcdChan n
  else { s.lcdChan n with fb := streamedFrame s.mem s.lcd.palette s.lcd.lpp (s.lcdChan n) }

/-- How many bytes an end of frame reads before it loads: the palette's or the frame's (R265, R266). -/
def shownLength (s : State) (n : LcdCh) : Nat :=
  if ldcmdPal (s.lcdChan n).ldcmd then 2 * paletteCount (s.lcdChan n) else streamLength s.lcd.lpp (s.lcdChan n)

/-- The memory image after streaming or a palette load. -/
def shownImage (s : State) (n : LcdCh) : Image := runImage (shownLength s n) (s.lcdChan n).fsadr s.mem

/-- The memory image after an end of frame (R264). -/
def endedImage (s : State) (n : LcdCh) : Image :=
  if ldcmdStop (s.lcdChan n).ldcmd then shownImage s n else afterDescriptor (shownImage s n) (s.lcdChan n).fdadr

/-- A channel after its end of frame (R264). -/
def endedChannel (s : State) (n : LcdCh) : LcdChannel :=
  if ldcmdStop (s.lcdChan n).ldcmd then shownChannel s n
  else loadedLcdChannel (shownImage s n) s.lcd.lpp s.lcd.pcd (shownChannel s n)

/-- A stale end of frame has no effect (R276). -/
theorem lcdFire_idle {n : LcdCh} {s : State} (h : s.lcd.lcden.getLsbD n = false) : lcdFire n s = s := by
  simp only [lcdFire, h]; rfl

/-- The end of frame of an enabled channel in closed form (R264). -/
theorem lcdFire_eq {n : LcdCh} {s : State} (h : s.lcd.lcden.getLsbD n = true) :
    lcdFire n s =
      { s with
        lcd :=
          { s.lcd with
            eof := setBit s.lcd.eof n
            bs := if ldcmdBint (s.lcdChan n).ldcmd then setBit s.lcd.bs n else s.lcd.bs
            lcden := if ldcmdStop (s.lcdChan n).ldcmd then clearBit s.lcd.lcden n else s.lcd.lcden
            palette := if ldcmdPal (s.lcdChan n).ldcmd then loadedPalette s.mem (s.lcdChan n) s.lcd.palette
              else s.lcd.palette
            chan := s.lcd.chan.set n (endedChannel s n) }
        mem := endedImage s n
        trace := s.trace ++ [frameOutOf n (shownChannel s n)] } := by
  simp only [lcdFire, h, if_true]
  by_cases h1 : ldcmdPal (s.lcdChan n).ldcmd = true <;> by_cases h2 : ldcmdBint (s.lcdChan n).ldcmd = true <;>
    by_cases h3 : ldcmdStop (s.lcdChan n).ldcmd = true <;>
    simp only [State.lcdChan, Fin.getElem_fin] at h1 h2 h3 <;>
    simp [h1, h2, h3, lcdLoad, endedChannel, shownChannel, endedImage, shownImage, shownLength, State.setMem, lcdStream, lcdPaletteLoad, State.setLcd, State.setLcdChan,
      State.lcdChan, State.emit]

theorem lcdFire_lcdChan_same {n : LcdCh} {s : State} (h : s.lcd.lcden.getLsbD n = true) :
    (lcdFire n s).lcdChan n = endedChannel s n := by
  rw [lcdFire_eq h]; simp [State.lcdChan]

theorem lcdFire_lcdChan_other {n k : LcdCh} (s : State) (h : k ≠ n) : (lcdFire n s).lcdChan k = s.lcdChan k := by
  cases hr : s.lcd.lcden.getLsbD n
  · rw [lcdFire_idle hr]
  · rw [lcdFire_eq hr]
    have : (n : Nat) ≠ k := fun e => h (Fin.ext e.symm)
    simp [State.lcdChan, this]

theorem lcdFire_eof {n : LcdCh} {s : State} (h : s.lcd.lcden.getLsbD n = true) :
    (lcdFire n s).lcd.eof = setBit s.lcd.eof n := by rw [lcdFire_eq h]

theorem lcdFire_bs {n : LcdCh} {s : State} (h : s.lcd.lcden.getLsbD n = true) :
    (lcdFire n s).lcd.bs = if ldcmdBint (s.lcdChan n).ldcmd then setBit s.lcd.bs n else s.lcd.bs := by
  rw [lcdFire_eq h]

theorem lcdFire_lcden {n : LcdCh} {s : State} (h : s.lcd.lcden.getLsbD n = true) :
    (lcdFire n s).lcd.lcden = if ldcmdStop (s.lcdChan n).ldcmd then clearBit s.lcd.lcden n else s.lcd.lcden := by
  rw [lcdFire_eq h]

theorem lcdFire_palette {n : LcdCh} {s : State} (h : s.lcd.lcden.getLsbD n = true) :
    (lcdFire n s).lcd.palette =
      if ldcmdPal (s.lcdChan n).ldcmd then loadedPalette s.mem (s.lcdChan n) s.lcd.palette else s.lcd.palette := by
  rw [lcdFire_eq h]

theorem lcdFire_trace {n : LcdCh} {s : State} (h : s.lcd.lcden.getLsbD n = true) :
    (lcdFire n s).trace = s.trace ++ [frameOutOf n (shownChannel s n)] := by rw [lcdFire_eq h]

@[simp] theorem lcdFire_lpp (n : LcdCh) (s : State) : (lcdFire n s).lcd.lpp = s.lcd.lpp := by
  cases h : s.lcd.lcden.getLsbD n
  · rw [lcdFire_idle h]
  · rw [lcdFire_eq h]

@[simp] theorem lcdFire_pcd (n : LcdCh) (s : State) : (lcdFire n s).lcd.pcd = s.lcd.pcd := by
  cases h : s.lcd.lcden.getLsbD n
  · rw [lcdFire_idle h]
  · rw [lcdFire_eq h]

@[simp] theorem lcdFire_timer (n : LcdCh) (s : State) : (lcdFire n s).timer = s.timer := by
  cases h : s.lcd.lcden.getLsbD n
  · rw [lcdFire_idle h]
  · rw [lcdFire_eq h]

@[simp] theorem lcdFire_dma (n : LcdCh) (s : State) : (lcdFire n s).dma = s.dma := by
  cases h : s.lcd.lcden.getLsbD n
  · rw [lcdFire_idle h]
  · rw [lcdFire_eq h]

@[simp] theorem lcdFire_chan (n : LcdCh) (s : State) (ch : Channel) : (lcdFire n s).chan ch = s.chan ch := by
  simp [State.chan]

theorem lcdFire_mem {n : LcdCh} {s : State} (h : s.lcd.lcden.getLsbD n = true) :
    (lcdFire n s).mem = endedImage s n := by rw [lcdFire_eq h]

/-- An end of frame only reads memory (R264 to R267). -/
theorem endedImage_onlyRead (s : State) (n : LcdCh) : OnlyRead s.mem (endedImage s n) := by
  unfold endedImage
  split
  · exact runImage_onlyRead _ _ _
  · exact (runImage_onlyRead _ _ _).trans (runImage_onlyRead _ _ _)

theorem lcdFire_onlyRead (n : LcdCh) (s : State) : OnlyRead s.mem (lcdFire n s).mem := by
  cases h : s.lcd.lcden.getLsbD n
  · rw [lcdFire_idle h]; exact .refl _
  · rw [lcdFire_mem h]; exact endedImage_onlyRead s n

@[simp] theorem lcdFire_frame (n : LcdCh) (s : State) : EventFrame s (lcdFire n s) := by
  cases h : s.lcd.lcden.getLsbD n
  · rw [lcdFire_idle h]; exact ⟨rfl, rfl, rfl, rfl, rfl⟩
  · rw [lcdFire_eq h]; exact ⟨rfl, rfl, rfl, rfl, rfl⟩

/-! ## The writes that start and stop a channel -/

/-- `RD.DCSR`'s word, bit by bit (R31). -/
theorem dcsrWord_bit (c : DmaChannel) (k : Nat) (hk : k < 32) :
    (dcsrWord c).getLsbD k =
      ((c.run && decide (k = 31)) || (c.en && decide (k = 30)) || (c.pause && decide (k = 29)) ||
        (!decide (k < 8) && c.req.getLsbD (k - 8)) || (c.endFlag && decide (k = 2)) || (c.busErr && decide (k = 0))) := by
  simp only [dcsrWord, BitVec.getLsbD_or, bitAt_bit _ _ _ hk, BitVec.getLsbD_shiftLeft, BitVec.getLsbD_setWidth, hk]
  by_cases h8 : k < 8
  · simp [h8]
  · have : k - 8 < 32 := by omega
    simp [h8, this]

/-- A channel after `WR.DCSR`: the merged register, and on RUN 0 to 1 the descriptor (R151, R163, R167). -/
def writtenChannel (be : Lanes) (d : Word) (s : State) (ch : Channel) : DmaChannel :=
  let c := dcsrMerged (s.chan ch) be d
  if !(s.chan ch).run && c.run then loadedChannel s.mem c else c

/-- The memory image after `WR.DCSR`: on RUN 0 to 1 the descriptor was read from it (R151, R163). -/
def writtenImage (be : Lanes) (d : Word) (s : State) (ch : Channel) : Image :=
  if !(s.chan ch).run && (dcsrMerged (s.chan ch) be d).run then afterDescriptor s.mem (s.chan ch).ddadr else s.mem

/-- `WR.DCSR` replaces its channel, and reads a descriptor if that starts it (R151). -/
theorem dcsrWrite_eq (ch : Channel) (be : Lanes) (d : Word) (s : State) :
    dcsrWrite ch be d s = (s.setChan ch (writtenChannel be d s ch)).setMem (writtenImage be d s ch) := by
  have hd : (dcsrMerged (s.chan ch) be d).ddadr = (s.chan ch).ddadr := rfl
  unfold dcsrWrite writtenChannel writtenImage
  simp only [State.setChan_chan_same]
  split
  · simp only [dmaKick, dmaLoad, State.setChan_chan_same, State.setChan_mem, hd]
    simp [State.setChan, State.setMem]
  · simp [dmaAbort, State.setChan, State.setMem]

/-- The written bit of `WR.LCCR0` starts channel n (R251). -/
def startsLcd (n : LcdCh) (be : Lanes) (d : Word) (s : State) : Bool :=
  !s.lcd.lcden.getLsbD n && be.getLsbD 0 && d.getLsbD n

/-- The memory image after the part of `WR.LCCR0` for channel n: a start has read the branch descriptor. -/
def startedImage (n : LcdCh) (be : Lanes) (d : Word) (s : State) : Image :=
  if startsLcd n be d s then afterDescriptor s.mem (s.lcdChan n).fdadr else s.mem

/-- `WR.LCCR0`'s part for channel n in closed form (R251, R261, R263). -/
theorem lccr0WriteBit_eq (n : LcdCh) (be : Lanes) (d : Word) (s : State) :
    lccr0WriteBit n be d s =
      (s.setLcd { s.lcd with
        lcden := putBit s.lcd.lcden n (if be.getLsbD 0 then d.getLsbD n else s.lcd.lcden.getLsbD n)
        chan := s.lcd.chan.set n (if startsLcd n be d s then loadedLcdChannel s.mem s.lcd.lpp s.lcd.pcd (s.lcdChan n)
          else s.lcdChan n) }).setMem (startedImage n be d s) := by
  have hm : (laneMask be).getLsbD n = be.getLsbD 0 := by
    rw [laneMask_bit _ _ (by omega)]; unfold laneOn; rw [Nat.div_eq_of_lt (by omega)]
  unfold lccr0WriteBit startedImage startsLcd
  rw [hm]
  cases h1 : s.lcd.lcden.getLsbD n <;> cases h2 : be.getLsbD 0 <;> cases h3 : d.getLsbD n <;>
    simp [lcdEnable, lcdLoad, lcdDisable, State.setMem, State.setLcd, State.setLcdChan, State.lcdChan]

theorem lccr0WriteBit_lcdChan (n k : LcdCh) (be : Lanes) (d : Word) (s : State) :
    (lccr0WriteBit n be d s).lcdChan k =
      if k = n ∧ startsLcd n be d s then loadedLcdChannel s.mem s.lcd.lpp s.lcd.pcd (s.lcdChan n) else s.lcdChan k := by
  rw [lccr0WriteBit_eq]
  by_cases hk : k = n
  · subst hk
    cases startsLcd k be d s <;> simp [State.lcdChan, State.setLcd, State.setMem]
  · have : (n : Nat) ≠ k := fun e => hk (Fin.ext e.symm)
    simp [State.lcdChan, State.setLcd, State.setMem, hk, this]

theorem lccr0WriteBit_lcden (n k : LcdCh) (be : Lanes) (d : Word) (s : State) :
    (lccr0WriteBit n be d s).lcd.lcden.getLsbD k =
      if k = n ∧ be.getLsbD 0 then d.getLsbD n else s.lcd.lcden.getLsbD k := by
  rw [lccr0WriteBit_eq, State.setMem_lcd, State.setLcd_lcd, putBit_bit _ _ _ _ n.isLt]
  by_cases hk : k = n
  · subst hk; simp
  · have : (k : Nat) ≠ n := fun e => hk (Fin.ext e)
    simp only [hk, this, false_and, if_false]

/-! ## The GPIO notifications -/

/-- `updateDriven` replaces the bank and appends one entry exactly when the direction or the driven levels changed
(45_gpio.md R303, R314). -/
theorem updateDriven_eq (b : Bank) (g : GpioBank) (s : State) :
    updateDriven b g s =
      { s.setBank b g with
        trace := if g.gpdir = (s.bank b).gpdir ∧ drivenLevels g = drivenLevels (s.bank b) then s.trace
          else s.trace ++ [gpioOutOf b g] } := by
  unfold updateDriven
  simp only
  split <;> rfl

/-- `updateLatch` replaces the latch and appends one entry exactly when the latch changed (45_gpio.md R305, R307). -/
theorem updateLatch_eq (b : Bank) (out : Word) (s : State) :
    updateLatch b out s =
      { s.setBank b { s.bank b with gpout := out } with
        trace := if out = (s.bank b).gpout then s.trace
          else s.trace ++ [gpioOutOf b { s.bank b with gpout := out }] } := by
  unfold updateLatch
  simp only
  split <;> rfl

@[simp] theorem updateDriven_bank_same (b : Bank) (g : GpioBank) (s : State) : (updateDriven b g s).bank b = g := by
  rw [updateDriven_eq]; exact State.setBank_bank_same s b g

@[simp] theorem updateLatch_bank_same (b : Bank) (out : Word) (s : State) :
    (updateLatch b out s).bank b = { s.bank b with gpout := out } := by
  rw [updateLatch_eq]; exact State.setBank_bank_same s b _

/-! ## Descriptors and copies -/

/-- The four words a load reads are the descriptor (30_encoding.md R112, R115). -/
theorem descriptorWord_at (m : Image) (a : Word) :
    DescriptorAt m a (descriptorWord m a 0) (descriptorWord m a 1) (descriptorWord m a 2) (descriptorWord m a 3) :=
  ⟨wordAt_littleEndian _ 0, wordAt_littleEndian _ 4, wordAt_littleEndian _ 8, wordAt_littleEndian _ 12⟩

/-- A load fills a DMA channel from the descriptor at its chain link (41_dma.md R164). -/
theorem loadedChannel_loaded (m : Image) (c : DmaChannel) : ChannelLoaded m c.ddadr (loadedChannel m c) :=
  ⟨descriptorWord m c.ddadr 3, descriptorWord_at m c.ddadr, rfl, rfl, Nat.le_add_left 1 _⟩

/-- A load fills an LCD channel from the branch descriptor at its branch pointer (44_lcd.md R262). -/
theorem loadedLcdChannel_loaded (m : Image) (lpp : BitVec 10) (pcd : BitVec 8) (c : LcdChannel) :
    LcdChannelLoaded m c.fdadr lpp pcd (loadedLcdChannel m lpp pcd c) :=
  ⟨descriptorWord m c.fdadr 3, descriptorWord_at m c.fdadr, rfl, rfl, Nat.le_add_left 1 _⟩

/-- The address of byte k of a range, one byte later. -/
theorem rangeAddr_nextAddr (inc : Bool) (a : Word) (k : Nat) :
    rangeAddr inc (nextAddr inc a) k = rangeAddr inc a (k + 1) := by
  cases inc
  · rfl
  · simp only [rangeAddr, nextAddr, if_true]
    rw [Nat.add_comm k 1, BitVec.ofNat_add, BitVec.add_assoc]; rfl

@[simp] theorem rangeAddr_zero (inc : Bool) (a : Word) : rangeAddr inc a 0 = a := by
  cases inc <;> simp [rangeAddr]

/-- A copy of n + 1 bytes is a copy of n bytes followed by the move of byte n (41_dma.md R166). -/
theorem copyBytes_snoc (i j : Bool) (n : Nat) (src trg : Word) (m : Image) :
    copyBytes i j (n + 1) src trg m =
      moveByte (copyBytes i j n src trg m) (rangeAddr i src n) (rangeAddr j trg n) := by
  induction n generalizing src trg m with
  | zero => simp [copyBytes]
  | succ n ih =>
    rw [copyBytes, ih]
    simp only [copyBytes, rangeAddr_nextAddr]

@[simp] theorem moveByte_ports (m : Image) (src trg : Word) : (moveByte m src trg).ports = m.ports := by simp [moveByte]

@[simp] theorem copyBytes_ports (i j : Bool) (n : Nat) (src trg : Word) (m : Image) :
    (copyBytes i j n src trg m).ports = m.ports := by
  induction n generalizing src trg m with
  | zero => rfl
  | succ n ih => rw [copyBytes, ih, moveByte_ports]

/-- What a byte of plain memory is after one move. -/
theorem plainByte_moveByte_other (m : Image) {src trg k : Word} (h : k ≠ trg) :
    plainByte (moveByte m src trg) k = plainByte m k := by
  rw [moveByte, plainByte_writeByte_other _ _ h, afterRead_plainByte]

/-- A byte that no target address meets is as before a copy. -/
theorem plainByte_copyBytes_outside (i j : Bool) (n : Nat) (src trg : Word) (m : Image) (a : Word)
    (h : ∀ k, k < n → a ≠ rangeAddr j trg k) : plainByte (copyBytes i j n src trg m) a = plainByte m a := by
  induction n with
  | zero => rfl
  | succ n ih =>
    rw [copyBytes_snoc, plainByte_moveByte_other _ (h n (Nat.lt_succ_self n)),
      ih fun k hk => h k (Nat.lt_succ_of_lt hk)]

/-- A completion changes no byte of plain memory but those its copy's target range meets (41_dma.md R165, R166). -/
theorem plainByte_completedImage_outside (c : DmaChannel) (m : Image) (a : Word)
    (h : ∀ k, k < (dcmdLen c.dcmd).toNat → a ≠ rangeAddr (dcmdIncTrg c.dcmd) c.dtadr k) :
    plainByte (completedImage c m) a = plainByte m a := by
  unfold completedImage
  split
  · exact plainByte_copyBytes_outside _ _ _ _ _ _ _ h
  · rw [afterDescriptor, runImage_plainByte]; exact plainByte_copyBytes_outside _ _ _ _ _ _ _ h

@[simp] theorem completedImage_ports (c : DmaChannel) (m : Image) : (completedImage c m).ports = m.ports := by
  unfold completedImage
  split <;> simp [copiedImage, afterDescriptor]

/-- A copy keeps the canonical form of the plain memory. -/
theorem wf_copyBytes (i j : Bool) (n : Nat) (src trg : Word) {m : Image} (h : Memory.wf m.cells = true) :
    Memory.wf (copyBytes i j n src trg m).cells = true := by
  induction n generalizing src trg m with
  | zero => exact h
  | succ n ih => exact ih _ _ (wf_writeByte _ _ (by simpa using h))

end Sys2Proof.Machine
end

