-- ==== Sys2Proof/Laws/PerInstr.lean ====
section
/-! SUPPORT. Statements made of every instruction, one lemma per constructor. `EncodingShape`: the command word of an
instruction has its ignored offset bits OFF[1:0] at 0 and its write bit W at 1 exactly for a write, and the encoding keeps the
byte lanes (30_encoding.md R100, R101). -/

namespace Sys2Proof.Laws.EncodingShape

open Sys2Proof

/-- The shape of the encoding of one instruction. -/
def Statement (i : Instr) : Prop :=
  (encode i).cmd.extractLsb' 0 2 = 0 ∧ (encode i).cmd.getLsbD 27 = i.isWrite ∧ (encode i).be = i.lanes

/-- The shape of an encoding whose command word is a constant with an index field at bit 2 or above. -/
theorem of_index {i : Instr} {value : Cmd} {lo idx : Nat} (hc : (encode i).cmd = withIndex value lo idx) (h2 : 2 ≤ lo)
    (h27 : (BitVec.ofNat 28 idx <<< lo).getLsbD 27 = false) (hv : value.extractLsb' 0 2 = 0)
    (hw : value.getLsbD 27 = i.isWrite) (hl : (encode i).be = i.lanes) : Statement i := by
  refine ⟨?_, ?_, hl⟩
  · rw [hc]
    ext k hk
    have hv := congrArg (fun v => v.getLsbD k) hv
    have hlo : k < lo := by omega
    simpa [withIndex, hlo, hk] using hv
  · rw [hc, withIndex, BitVec.getLsbD_or, h27, hw, Bool.or_false]

/-- The shape of an encoding whose command word is a constant. -/
theorem of_const {i : Instr} {value : Cmd} (hc : (encode i).cmd = value) (hv : value.extractLsb' 0 2 = 0)
    (hw : value.getLsbD 27 = i.isWrite) (hl : (encode i).be = i.lanes) : Statement i :=
  ⟨by rw [hc]; exact hv, by rw [hc]; exact hw, hl⟩

/-- The shape of an encoding whose command word is the word offset between the write bit and two zero bits. -/
theorem of_offset {i : Instr} {w : BitVec 1} {off : BitVec 25} (hc : (encode i).cmd = w ++ off ++ (0 : BitVec 2))
    (hw : w.getLsbD 0 = i.isWrite) (hl : (encode i).be = i.lanes) : Statement i := by
  refine ⟨?_, ?_, hl⟩
  · rw [hc]
    ext k hk
    simp only [BitVec.getElem_extractLsb', BitVec.getLsbD_append]
    simp [hk]
  · rw [hc, ← hw, BitVec.getLsbD_append, BitVec.getLsbD_append]
    rfl

theorem rdDcsr (ch : Channel) (be : Lanes) : Statement (.rdDcsr ch be) :=
  of_index rfl (by decide) (by revert ch; decide) (by decide) rfl rfl
theorem wrDcsr (ch : Channel) (be : Lanes) (data : Word) : Statement (.wrDcsr ch be data) :=
  of_index rfl (by decide) (by revert ch; decide) (by decide) rfl rfl
theorem rdDint (be : Lanes) : Statement (.rdDint be) := of_const (value := 0x00000F0) rfl (by decide) rfl rfl
theorem wrDint (be : Lanes) (data : Word) : Statement (.wrDint be data) := of_const (value := 0x80000F0) rfl (by decide) rfl rfl
theorem rdDdadr (ch : Channel) (be : Lanes) : Statement (.rdDdadr ch be) :=
  of_index rfl (by decide) (by revert ch; decide) (by decide) rfl rfl
theorem wrDdadr (ch : Channel) (be : Lanes) (data : Word) : Statement (.wrDdadr ch be data) :=
  of_index rfl (by decide) (by revert ch; decide) (by decide) rfl rfl
theorem rdDsadr (ch : Channel) (be : Lanes) : Statement (.rdDsadr ch be) :=
  of_index rfl (by decide) (by revert ch; decide) (by decide) rfl rfl
theorem wrDsadr (ch : Channel) (be : Lanes) (data : Word) : Statement (.wrDsadr ch be data) :=
  of_index rfl (by decide) (by revert ch; decide) (by decide) rfl rfl
theorem rdDtadr (ch : Channel) (be : Lanes) : Statement (.rdDtadr ch be) :=
  of_index rfl (by decide) (by revert ch; decide) (by decide) rfl rfl
theorem wrDtadr (ch : Channel) (be : Lanes) (data : Word) : Statement (.wrDtadr ch be data) :=
  of_index rfl (by decide) (by revert ch; decide) (by decide) rfl rfl
theorem rdDcmd (ch : Channel) (be : Lanes) : Statement (.rdDcmd ch be) :=
  of_index rfl (by decide) (by revert ch; decide) (by decide) rfl rfl
theorem wrDcmd (ch : Channel) (be : Lanes) (data : Word) : Statement (.wrDcmd ch be data) :=
  of_index rfl (by decide) (by revert ch; decide) (by decide) rfl rfl
theorem rdOsmr (i : Slot) (be : Lanes) : Statement (.rdOsmr i be) :=
  of_index rfl (by decide) (by revert i; decide) (by decide) rfl rfl
theorem wrOsmr (i : Slot) (be : Lanes) (data : Word) : Statement (.wrOsmr i be data) :=
  of_index rfl (by decide) (by revert i; decide) (by decide) rfl rfl
theorem rdOscr (be : Lanes) : Statement (.rdOscr be) := of_const (value := 0x0A00010) rfl (by decide) rfl rfl
theorem wrOscr (be : Lanes) (data : Word) : Statement (.wrOscr be data) := of_const (value := 0x8A00010) rfl (by decide) rfl rfl
theorem rdOssr (be : Lanes) : Statement (.rdOssr be) := of_const (value := 0x0A00014) rfl (by decide) rfl rfl
theorem wrOssr (be : Lanes) (data : Word) : Statement (.wrOssr be data) := of_const (value := 0x8A00014) rfl (by decide) rfl rfl
theorem rdOier (be : Lanes) : Statement (.rdOier be) := of_const (value := 0x0A0001C) rfl (by decide) rfl rfl
theorem wrOier (be : Lanes) (data : Word) : Statement (.wrOier be data) := of_const (value := 0x8A0001C) rfl (by decide) rfl rfl
theorem rdIcip (be : Lanes) : Statement (.rdIcip be) := of_const (value := 0x0D00000) rfl (by decide) rfl rfl
theorem wrIcip (be : Lanes) (data : Word) : Statement (.wrIcip be data) := of_const (value := 0x8D00000) rfl (by decide) rfl rfl
theorem rdIcmr (be : Lanes) : Statement (.rdIcmr be) := of_const (value := 0x0D00004) rfl (by decide) rfl rfl
theorem wrIcmr (be : Lanes) (data : Word) : Statement (.wrIcmr be data) := of_const (value := 0x8D00004) rfl (by decide) rfl rfl
theorem rdIclr (be : Lanes) : Statement (.rdIclr be) := of_const (value := 0x0D00008) rfl (by decide) rfl rfl
theorem wrIclr (be : Lanes) (data : Word) : Statement (.wrIclr be data) := of_const (value := 0x8D00008) rfl (by decide) rfl rfl
theorem rdIcfp (be : Lanes) : Statement (.rdIcfp be) := of_const (value := 0x0D0000C) rfl (by decide) rfl rfl
theorem wrIcfp (be : Lanes) (data : Word) : Statement (.wrIcfp be data) := of_const (value := 0x8D0000C) rfl (by decide) rfl rfl
theorem rdIcpr (be : Lanes) : Statement (.rdIcpr be) := of_const (value := 0x0D00010) rfl (by decide) rfl rfl
theorem wrIcpr (be : Lanes) (data : Word) : Statement (.wrIcpr be data) := of_const (value := 0x8D00010) rfl (by decide) rfl rfl
theorem rdLccr0 (be : Lanes) : Statement (.rdLccr0 be) := of_const (value := 0x4000000) rfl (by decide) rfl rfl
theorem wrLccr0 (be : Lanes) (data : Word) : Statement (.wrLccr0 be data) := of_const (value := 0xC000000) rfl (by decide) rfl rfl
theorem rdLccr2 (be : Lanes) : Statement (.rdLccr2 be) := of_const (value := 0x4000008) rfl (by decide) rfl rfl
theorem wrLccr2 (be : Lanes) (data : Word) : Statement (.wrLccr2 be data) := of_const (value := 0xC000008) rfl (by decide) rfl rfl
theorem rdLccr3 (be : Lanes) : Statement (.rdLccr3 be) := of_const (value := 0x400000C) rfl (by decide) rfl rfl
theorem wrLccr3 (be : Lanes) (data : Word) : Statement (.wrLccr3 be data) := of_const (value := 0xC00000C) rfl (by decide) rfl rfl
theorem rdLcsr (be : Lanes) : Statement (.rdLcsr be) := of_const (value := 0x4000038) rfl (by decide) rfl rfl
theorem wrLcsr (be : Lanes) (data : Word) : Statement (.wrLcsr be data) := of_const (value := 0xC000038) rfl (by decide) rfl rfl
theorem rdFdadr (n : LcdCh) (be : Lanes) : Statement (.rdFdadr n be) :=
  of_index rfl (by decide) (by revert n; decide) (by decide) rfl rfl
theorem wrFdadr (n : LcdCh) (be : Lanes) (data : Word) : Statement (.wrFdadr n be data) :=
  of_index rfl (by decide) (by revert n; decide) (by decide) rfl rfl
theorem rdFsadr (n : LcdCh) (be : Lanes) : Statement (.rdFsadr n be) :=
  of_index rfl (by decide) (by revert n; decide) (by decide) rfl rfl
theorem wrFsadr (n : LcdCh) (be : Lanes) (data : Word) : Statement (.wrFsadr n be data) :=
  of_index rfl (by decide) (by revert n; decide) (by decide) rfl rfl
theorem rdFidr (n : LcdCh) (be : Lanes) : Statement (.rdFidr n be) :=
  of_index rfl (by decide) (by revert n; decide) (by decide) rfl rfl
theorem wrFidr (n : LcdCh) (be : Lanes) (data : Word) : Statement (.wrFidr n be data) :=
  of_index rfl (by decide) (by revert n; decide) (by decide) rfl rfl
theorem rdLdcmd (n : LcdCh) (be : Lanes) : Statement (.rdLdcmd n be) :=
  of_index rfl (by decide) (by revert n; decide) (by decide) rfl rfl
theorem wrLdcmd (n : LcdCh) (be : Lanes) (data : Word) : Statement (.wrLdcmd n be data) :=
  of_index rfl (by decide) (by revert n; decide) (by decide) rfl rfl
theorem rdGplr0 (be : Lanes) : Statement (.rdGplr0 be) := of_const (value := 0x0E00000) rfl (by decide) rfl rfl
theorem wrGplr0 (be : Lanes) (data : Word) : Statement (.wrGplr0 be data) := of_const (value := 0x8E00000) rfl (by decide) rfl rfl
theorem rdGplr1 (be : Lanes) : Statement (.rdGplr1 be) := of_const (value := 0x0E00004) rfl (by decide) rfl rfl
theorem wrGplr1 (be : Lanes) (data : Word) : Statement (.wrGplr1 be data) := of_const (value := 0x8E00004) rfl (by decide) rfl rfl
theorem rdGplr2 (be : Lanes) : Statement (.rdGplr2 be) := of_const (value := 0x0E00008) rfl (by decide) rfl rfl
theorem wrGplr2 (be : Lanes) (data : Word) : Statement (.wrGplr2 be data) := of_const (value := 0x8E00008) rfl (by decide) rfl rfl
theorem rdGpdr0 (be : Lanes) : Statement (.rdGpdr0 be) := of_const (value := 0x0E0000C) rfl (by decide) rfl rfl
theorem wrGpdr0 (be : Lanes) (data : Word) : Statement (.wrGpdr0 be data) := of_const (value := 0x8E0000C) rfl (by decide) rfl rfl
theorem rdGpdr1 (be : Lanes) : Statement (.rdGpdr1 be) := of_const (value := 0x0E00010) rfl (by decide) rfl rfl
theorem wrGpdr1 (be : Lanes) (data : Word) : Statement (.wrGpdr1 be data) := of_const (value := 0x8E00010) rfl (by decide) rfl rfl
theorem rdGpdr2 (be : Lanes) : Statement (.rdGpdr2 be) := of_const (value := 0x0E00014) rfl (by decide) rfl rfl
theorem wrGpdr2 (be : Lanes) (data : Word) : Statement (.wrGpdr2 be data) := of_const (value := 0x8E00014) rfl (by decide) rfl rfl
theorem rdGpsr0 (be : Lanes) : Statement (.rdGpsr0 be) := of_const (value := 0x0E00018) rfl (by decide) rfl rfl
theorem wrGpsr0 (be : Lanes) (data : Word) : Statement (.wrGpsr0 be data) := of_const (value := 0x8E00018) rfl (by decide) rfl rfl
theorem rdGpsr1 (be : Lanes) : Statement (.rdGpsr1 be) := of_const (value := 0x0E0001C) rfl (by decide) rfl rfl
theorem wrGpsr1 (be : Lanes) (data : Word) : Statement (.wrGpsr1 be data) := of_const (value := 0x8E0001C) rfl (by decide) rfl rfl
theorem rdGpsr2 (be : Lanes) : Statement (.rdGpsr2 be) := of_const (value := 0x0E00020) rfl (by decide) rfl rfl
theorem wrGpsr2 (be : Lanes) (data : Word) : Statement (.wrGpsr2 be data) := of_const (value := 0x8E00020) rfl (by decide) rfl rfl
theorem rdGpcr0 (be : Lanes) : Statement (.rdGpcr0 be) := of_const (value := 0x0E00024) rfl (by decide) rfl rfl
theorem wrGpcr0 (be : Lanes) (data : Word) : Statement (.wrGpcr0 be data) := of_const (value := 0x8E00024) rfl (by decide) rfl rfl
theorem rdGpcr1 (be : Lanes) : Statement (.rdGpcr1 be) := of_const (value := 0x0E00028) rfl (by decide) rfl rfl
theorem wrGpcr1 (be : Lanes) (data : Word) : Statement (.wrGpcr1 be data) := of_const (value := 0x8E00028) rfl (by decide) rfl rfl
theorem rdGpcr2 (be : Lanes) : Statement (.rdGpcr2 be) := of_const (value := 0x0E0002C) rfl (by decide) rfl rfl
theorem wrGpcr2 (be : Lanes) (data : Word) : Statement (.wrGpcr2 be data) := of_const (value := 0x8E0002C) rfl (by decide) rfl rfl
theorem rdGrer0 (be : Lanes) : Statement (.rdGrer0 be) := of_const (value := 0x0E00030) rfl (by decide) rfl rfl
theorem wrGrer0 (be : Lanes) (data : Word) : Statement (.wrGrer0 be data) := of_const (value := 0x8E00030) rfl (by decide) rfl rfl
theorem rdGrer1 (be : Lanes) : Statement (.rdGrer1 be) := of_const (value := 0x0E00034) rfl (by decide) rfl rfl
theorem wrGrer1 (be : Lanes) (data : Word) : Statement (.wrGrer1 be data) := of_const (value := 0x8E00034) rfl (by decide) rfl rfl
theorem rdGrer2 (be : Lanes) : Statement (.rdGrer2 be) := of_const (value := 0x0E00038) rfl (by decide) rfl rfl
theorem wrGrer2 (be : Lanes) (data : Word) : Statement (.wrGrer2 be data) := of_const (value := 0x8E00038) rfl (by decide) rfl rfl
theorem rdGfer0 (be : Lanes) : Statement (.rdGfer0 be) := of_const (value := 0x0E0003C) rfl (by decide) rfl rfl
theorem wrGfer0 (be : Lanes) (data : Word) : Statement (.wrGfer0 be data) := of_const (value := 0x8E0003C) rfl (by decide) rfl rfl
theorem rdGfer1 (be : Lanes) : Statement (.rdGfer1 be) := of_const (value := 0x0E00040) rfl (by decide) rfl rfl
theorem wrGfer1 (be : Lanes) (data : Word) : Statement (.wrGfer1 be data) := of_const (value := 0x8E00040) rfl (by decide) rfl rfl
theorem rdGfer2 (be : Lanes) : Statement (.rdGfer2 be) := of_const (value := 0x0E00044) rfl (by decide) rfl rfl
theorem wrGfer2 (be : Lanes) (data : Word) : Statement (.wrGfer2 be data) := of_const (value := 0x8E00044) rfl (by decide) rfl rfl
theorem rdGedr0 (be : Lanes) : Statement (.rdGedr0 be) := of_const (value := 0x0E00048) rfl (by decide) rfl rfl
theorem wrGedr0 (be : Lanes) (data : Word) : Statement (.wrGedr0 be data) := of_const (value := 0x8E00048) rfl (by decide) rfl rfl
theorem rdGedr1 (be : Lanes) : Statement (.rdGedr1 be) := of_const (value := 0x0E0004C) rfl (by decide) rfl rfl
theorem wrGedr1 (be : Lanes) (data : Word) : Statement (.wrGedr1 be data) := of_const (value := 0x8E0004C) rfl (by decide) rfl rfl
theorem rdGedr2 (be : Lanes) : Statement (.rdGedr2 be) := of_const (value := 0x0E00050) rfl (by decide) rfl rfl
theorem wrGedr2 (be : Lanes) (data : Word) : Statement (.wrGedr2 be data) := of_const (value := 0x8E00050) rfl (by decide) rfl rfl
theorem rdAudio (word : Fin 32) (be : Lanes) : Statement (.rdAudio word be) :=
  of_index rfl (by decide) (by revert word; decide) (by decide) rfl rfl
theorem wrAudio (word : Fin 32) (be : Lanes) (data : Word) : Statement (.wrAudio word be data) :=
  of_index rfl (by decide) (by revert word; decide) (by decide) rfl rfl
theorem rdAudioTop (be : Lanes) : Statement (.rdAudioTop be) := of_const (value := 0x0400080) rfl (by decide) rfl rfl
theorem wrAudioTop (be : Lanes) (data : Word) : Statement (.wrAudioTop be data) := of_const (value := 0x8400080) rfl (by decide) rfl rfl
theorem rdUnmapped (off : BitVec 25) (be : Lanes) : Statement (.rdUnmapped off be) := of_offset rfl rfl rfl
theorem wrUnmapped (off : BitVec 25) (be : Lanes) (data : Word) : Statement (.wrUnmapped off be data) :=
  of_offset rfl rfl rfl

end Sys2Proof.Laws.EncodingShape
end

