-- ==== Sys2Proof/Laws/Reset.lean ====
section
/-! SUPPORT. What the `Reset` step leaves in each field (70_reset_and_hazards.md R360, R361; 10_state.md R64). -/

namespace Sys2Proof.Machine

theorem DmaChannel.reset_all (ch : Channel) : Dma.reset.chan[ch] = DmaChannel.reset := by simp [Dma.reset]

theorem LcdChannel.reset_all (d : Nat) (n : LcdCh) : (Lcd.reset d).chan[n] = LcdChannel.reset := by simp [Lcd.reset]

theorem GpioBank.reset_all (b : Bank) : (Vector.replicate 3 GpioBank.reset)[b] = GpioBank.reset := by simp

/-- With every unit at its reset value no source is high. -/
theorem sources_reset {s : State} (h1 : s.timer = Timer.reset) (h2 : s.dma = Dma.reset) (h3 : s.lcd.bs = 0)
    (h4 : s.gpio = Vector.replicate 3 GpioBank.reset) : sources s = 0 := by
  have hl : lcdSource s.lcd = false := by simp [lcdSource, h3]
  simp only [sources, h1, h2, h4, hl]
  decide +kernel

/-- The interrupt controller with no source high and the reset mask and routing stays at its reset value. -/
theorem recompute_reset : recompute { Intc.reset with icpr := 0 } = Intc.reset := by decide +kernel

@[simp] theorem resetStep_timer (s : State) : (resetStep s).timer = Timer.reset := rfl
@[simp] theorem resetStep_dma (s : State) : (resetStep s).dma = Dma.reset := rfl
@[simp] theorem resetStep_lcd (s : State) : (resetStep s).lcd = Lcd.reset s.draws := rfl
@[simp] theorem resetStep_gpio (s : State) : (resetStep s).gpio = Vector.replicate 3 GpioBank.reset := rfl
@[simp] theorem resetStep_mem (s : State) : (resetStep s).mem = s.mem := rfl
@[simp] theorem resetStep_trace (s : State) : (resetStep s).trace = s.trace := rfl
@[simp] theorem resetStep_rdata (s : State) : (resetStep s).rdata = none := rfl
@[simp] theorem resetStep_inbox (s : State) : (resetStep s).inbox = s.inbox := rfl
@[simp] theorem resetStep_draws (s : State) : (resetStep s).draws = s.draws + 1 := rfl

@[simp] theorem resetStep_intc (s : State) : (resetStep s).intc = Intc.reset := by
  unfold resetStep intcUpdate
  rw [sources_reset rfl rfl rfl rfl]
  exact recompute_reset

@[simp] theorem resetStep_chan (s : State) (ch : Channel) : (resetStep s).chan ch = DmaChannel.reset :=
  DmaChannel.reset_all ch

@[simp] theorem resetStep_lcdChan (s : State) (n : LcdCh) : (resetStep s).lcdChan n = LcdChannel.reset :=
  LcdChannel.reset_all s.draws n

@[simp] theorem resetStep_bank (s : State) (b : Bank) : (resetStep s).bank b = GpioBank.reset := GpioBank.reset_all b

@[simp] theorem State.reset_chan (ch : Channel) : State.reset.chan ch = DmaChannel.reset := DmaChannel.reset_all ch

@[simp] theorem State.reset_lcdChan (n : LcdCh) : State.reset.lcdChan n = LcdChannel.reset := LcdChannel.reset_all 0 n

@[simp] theorem State.reset_bank (b : Bank) : State.reset.bank b = GpioBank.reset := GpioBank.reset_all b

end Sys2Proof.Machine
end

