-- ==== Sys2Proof/Laws/Ticks.lean ====
section
/-! SUPPORT. What a tick can do (40_dispatcher.md R138, R139): the order of its events is a permutation of the due set, an
event changes only its own slot or channel, and every event of the due set fires exactly once. -/

namespace Sys2Proof.Machine

/-! ## The order of the events -/

theorem insertEvent_perm (rank : Event → Nat) (e : Event) (l : List Event) : (insertEvent rank e l).Perm (e :: l) := by
  induction l with
  | nil => exact List.Perm.refl _
  | cons x rest ih =>
    simp only [insertEvent]
    split
    · exact List.Perm.refl _
    · exact (ih.cons x).trans (List.Perm.swap e x rest)

/-- Membership in the due set, event by event (R138). -/
theorem mem_dueEvents (s : State) (e : Event) :
    e ∈ dueEvents s ↔
      match e with
      | .tmr i => slotDue s.timer i = true
      | .dma ch => dmaDue s ch = true
      | .lcd n => lcdDue s n = true := by
  have h1 : ∀ i : Slot, i ∈ allSlots := by decide
  have h2 : ∀ ch : Channel, ch ∈ allChannels := by decide
  have h3 : ∀ n : LcdCh, n ∈ allLcd := by decide
  cases e <;> simp [dueEvents, h1, h2, h3]

/-- No event is due twice. -/
theorem dueEvents_nodup (s : State) : (dueEvents s).Nodup := by
  have h1 : allSlots.Nodup := by decide
  have h2 : allChannels.Nodup := by decide
  have h3 : allLcd.Nodup := by decide
  unfold dueEvents
  rw [List.nodup_append, List.nodup_append]
  refine ⟨⟨(h1.filter _).map fun _ _ h => by injection h, (h2.filter _).map fun _ _ h => by injection h, ?_⟩,
    (h3.filter _).map fun _ _ h => by injection h, ?_⟩
  · rintro a ha b hb rfl
    simp only [List.mem_map] at ha hb
    obtain ⟨_, _, rfl⟩ := ha
    obtain ⟨_, _, h⟩ := hb
    cases h
  · rintro a ha b hb rfl
    simp only [List.mem_append, List.mem_map] at ha hb
    obtain ⟨_, _, rfl⟩ := hb
    rcases ha with ⟨_, _, h⟩ | ⟨_, _, h⟩ <;> cases h

/-! ## One event -/

theorem fireEvent_frame (s : State) (e : Event) : EventFrame s (fireEvent s e) := by
  cases e
  · exact tmrFire_frame _ s
  · exact dmaFire_frame _ s
  · exact lcdFire_frame _ s

/-- Only its own completion changes a DMA channel. -/
theorem fireEvent_chan {ch : Channel} {e : Event} (s : State) (h : e ≠ .dma ch) : (fireEvent s e).chan ch = s.chan ch := by
  cases e with
  | tmr i => rfl
  | dma k => exact dmaFire_chan_other s fun hk => h (by rw [hk])
  | lcd n => exact lcdFire_chan n s ch

/-- Only its own completion changes a channel's raw-pending bit. -/
theorem fireEvent_irqp {ch : Channel} {e : Event} (s : State) (h : e ≠ .dma ch) :
    (fireEvent s e).dma.irqp.getLsbD ch = s.dma.irqp.getLsbD ch := by
  cases e with
  | tmr i => rfl
  | dma k =>
    have hk : ch.val ≠ k.val := fun hk => h (by rw [Fin.ext hk])
    show (dmaFire k s).dma.irqp.getLsbD ch = _
    cases hr : (s.chan k).run
    · rw [dmaFire_idle hr]
    · rw [dmaFire_irqp hr]
      split
      · rw [setBit_bit]; simp only [hk]; simp
      · rfl
  | lcd n => show (lcdFire n s).dma.irqp.getLsbD ch = _; rw [lcdFire_dma]

/-- Only its own end of frame changes an LCD channel. -/
theorem fireEvent_lcdChan {n : LcdCh} {e : Event} (s : State) (h : e ≠ .lcd n) :
    (fireEvent s e).lcdChan n = s.lcdChan n := by
  cases e with
  | tmr i => rfl
  | dma k => exact dmaFire_lcdChan k s n
  | lcd k => exact lcdFire_lcdChan_other s fun hk => h (by rw [hk])

/-- Only its own end of frame changes an LCD channel's enable and flags. -/
theorem fireEvent_lcdBits {n : LcdCh} {e : Event} (s : State) (h : e ≠ .lcd n) :
    (fireEvent s e).lcd.lcden.getLsbD n = s.lcd.lcden.getLsbD n ∧
      (fireEvent s e).lcd.eof.getLsbD n = s.lcd.eof.getLsbD n ∧
      (fireEvent s e).lcd.bs.getLsbD n = s.lcd.bs.getLsbD n := by
  cases e with
  | tmr i => exact ⟨rfl, rfl, rfl⟩
  | dma k => simp only [fireEvent, dmaFire_lcd, and_self]
  | lcd k =>
    have hk : n.val ≠ k.val := fun hk => h (by rw [Fin.ext hk])
    show (lcdFire k s).lcd.lcden.getLsbD n = _ ∧ (lcdFire k s).lcd.eof.getLsbD n = _ ∧ (lcdFire k s).lcd.bs.getLsbD n = _
    cases hr : s.lcd.lcden.getLsbD k
    · rw [lcdFire_idle hr]; simp
    · rw [lcdFire_lcden hr, lcdFire_eof hr, lcdFire_bs hr]
      refine ⟨?_, ?_, ?_⟩
      · split
        · rw [clearBit_bit]; simp only [hk]; simp
        · rfl
      · rw [setBit_bit]; simp only [hk]; simp
      · split
        · rw [setBit_bit]; simp only [hk]; simp
        · rfl

/-- No event changes LPP or PCD. -/
theorem fireEvent_lpp_pcd (s : State) (e : Event) :
    (fireEvent s e).lcd.lpp = s.lcd.lpp ∧ (fireEvent s e).lcd.pcd = s.lcd.pcd := by
  cases e <;> simp [fireEvent, tmrFire]

/-- No event changes the counter, the match values or the enables. -/
theorem fireEvent_timer (s : State) (e : Event) :
    (fireEvent s e).timer.osmr = s.timer.osmr ∧ (fireEvent s e).timer.oscr = s.timer.oscr ∧
      (fireEvent s e).timer.oier = s.timer.oier := by
  cases e <;> simp [fireEvent, tmrFire]

/-- Only its own match changes a slot's status and armed bits. -/
theorem fireEvent_slot {i : Slot} {e : Event} (s : State) (h : e ≠ .tmr i) :
    (fireEvent s e).timer.ossr.getLsbD i = s.timer.ossr.getLsbD i ∧
      (fireEvent s e).timer.armed.getLsbD i = s.timer.armed.getLsbD i := by
  cases e with
  | tmr k =>
    have hk : i.val ≠ k.val := fun hk => h (by rw [Fin.ext hk])
    simp only [fireEvent, tmrFire_timer, setBit_bit, clearBit_bit, hk]
    simp
  | dma k => simp [fireEvent]
  | lcd k => simp [fireEvent]

/-! ## All events of a tick -/

theorem fireAll_append (l l' : List Event) (s : State) : fireAll (l ++ l') s = fireAll l' (fireAll l s) := by
  induction l generalizing s with
  | nil => rfl
  | cons e rest ih => exact ih _

/-- A view of the state that every event of a list leaves is left by the list. -/
theorem fireAll_keeps {α : Type} (v : State → α) (l : List Event) (s : State)
    (h : ∀ e ∈ l, ∀ s, v (fireEvent s e) = v s) : v (fireAll l s) = v s := by
  induction l generalizing s with
  | nil => rfl
  | cons e rest ih =>
    show v (fireAll rest (fireEvent s e)) = v s
    rw [ih _ fun x hx => h x (List.mem_cons_of_mem _ hx), h e List.mem_cons_self]

/-- A property that every event keeps is kept by a list of events. -/
theorem fireAll_invariant (P : State → Prop) (h : ∀ e s, P s → P (fireEvent s e)) (l : List Event) (s : State)
    (hs : P s) : P (fireAll l s) := by
  induction l generalizing s with
  | nil => exact hs
  | cons e rest ih => exact ih _ (h e s hs)

theorem fireAll_frame (l : List Event) (s : State) : EventFrame s (fireAll l s) := by
  refine ⟨?_, ?_, ?_, ?_, ?_⟩
  · exact fireAll_keeps (·.intc) l s fun e _ s => (fireEvent_frame s e).intc
  · exact fireAll_keeps (·.gpio) l s fun e _ s => (fireEvent_frame s e).gpio
  · exact fireAll_keeps (·.rdata) l s fun e _ s => (fireEvent_frame s e).rdata
  · exact fireAll_keeps (·.inbox) l s fun e _ s => (fireEvent_frame s e).inbox
  · exact fireAll_keeps (·.draws) l s fun e _ s => (fireEvent_frame s e).draws

/-- A view that only the event e can change, after a list that holds e once: it is that of firing e on some state that
agrees with the first on every view that only e can change. -/
theorem fireAll_once {e : Event} {l : List Event} (hl : l.Nodup) (he : e ∈ l) (s : State) :
    ∃ l1 l2, l = l1 ++ e :: l2 ∧ e ∉ l1 ∧ e ∉ l2 ∧ fireAll l s = fireAll l2 (fireEvent (fireAll l1 s) e) := by
  obtain ⟨l1, l2, rfl⟩ := List.append_of_mem he
  rw [List.nodup_append] at hl
  obtain ⟨_, h2, h3⟩ := hl
  rw [List.nodup_cons] at h2
  exact ⟨l1, l2, rfl, fun h => h3 e h e List.mem_cons_self rfl, h2.1, by rw [fireAll_append]; rfl⟩

end Sys2Proof.Machine
end

