-- ==== Sys2Proof/Tests/Slice0.lean ====
section
/-! SUPPORT. Our own tests: well-formedness, one decoded word per row of the opcode table, one small step per operation with
the value that spec/95_test_vectors.md or the rule's own example states, reset values, and a witness for the hypotheses of
every statement in Certificates/Slice0/Obligations.lean. -/

namespace Sys2Proof.Tests

open Sys2Proof Sys2Proof.Machine

-- One theorem after the other: many kernel evaluations waiting at once would each hold a thread.
set_option Elab.async false

/-! ## Well-formedness -/

/-- An UNMAPPED access at an offset where something answers is ill-formed: one per range of R106 to R111, at both ends. -/
theorem test_wellFormed_refuses :
    (Instr.rdUnmapped 0x0000000 0xF).wellFormed = false ∧ (Instr.wrUnmapped 0x000003C 0xF 0).wellFormed = false ∧
    (Instr.rdUnmapped 0x00000BF 0xF).wellFormed = false ∧ (Instr.rdUnmapped 0x0280000 0xF).wellFormed = false ∧
    (Instr.wrUnmapped 0x0280007 0xF 0).wellFormed = false ∧ (Instr.rdUnmapped 0x0340000 0xF).wellFormed = false ∧
    (Instr.wrUnmapped 0x0340004 0xF 0).wellFormed = false ∧ (Instr.rdUnmapped 0x1000000 0xF).wellFormed = false ∧
    (Instr.rdUnmapped 0x100000E 0xF).wellFormed = false ∧ (Instr.wrUnmapped 0x1000087 0xF 0).wellFormed = false ∧
    (Instr.rdUnmapped 0x0380000 0xF).wellFormed = false ∧ (Instr.wrUnmapped 0x0380014 0xF 0).wellFormed = false ∧
    (Instr.rdUnmapped 0x0100000 0xF).wellFormed = false ∧ (Instr.wrUnmapped 0x0100020 0xF 0).wellFormed = false := by decide

/-- UNMAPPED accesses at the holes of vectors V7, V8, V10, V11, V12, V14, V15, V17, V18 and V20 are well-formed, and so is
every register access. -/
theorem test_wellFormed_accepts :
    (Instr.rdUnmapped 0x0000010 0xF).wellFormed = true ∧ (Instr.rdUnmapped 0x0000040 0xF).wellFormed = true ∧
    (Instr.rdUnmapped 0x0280006 0xF).wellFormed = true ∧ (Instr.rdUnmapped 0x0280008 0xF).wellFormed = true ∧
    (Instr.wrUnmapped 0x0340005 0xF 0).wellFormed = true ∧ (Instr.rdUnmapped 0x0380015 0xF).wellFormed = true ∧
    (Instr.rdUnmapped 0x1000001 0xF).wellFormed = true ∧ (Instr.rdUnmapped 0x1000088 0xF).wellFormed = true ∧
    (Instr.rdUnmapped 0x1FFFFFF 0xF).wellFormed = true ∧ (Instr.rdUnmapped 0x0100021 0xF).wellFormed = true ∧
    (Instr.wrLdcmd 1 0x0 0).wellFormed = true := by decide

/-! ## Decoding, on words written out from the spec's encodings -/

/-- The same words bit by bit: W, then OFF[26:2], then the two ignored bits (R100, R106 to R111); V3 and V12 among them. -/
theorem test_decode_bits :
    decode ⟨0b0_000000000000000000000010111, 0xF, 0⟩ = .rdDcsr 5 0xF ∧
    decode ⟨0b1_000000000000000001011111000, 0x1, 7⟩ = .wrDtadr 15 0x1 7 ∧
    decode ⟨0b0_000101000000000000000001100, 0xF, 0⟩ = .rdOsmr 3 0xF ∧
    decode ⟨0b1_000110100000000000000000100, 0xF, 7⟩ = .wrIcmr 0xF 7 ∧
    decode ⟨0b1_100000000000000001000010100, 0x8, 7⟩ = .wrFsadr 1 0x8 7 ∧
    decode ⟨0b0_000111000000000000001010000, 0xF, 0⟩ = .rdGedr2 0xF ∧
    decode ⟨0b1_000010000000000000001111100, 0xF, 7⟩ = .wrAudio 31 0xF 7 ∧
    decode ⟨0b0_111111111111111111111111100, 0xF, 0⟩ = .rdUnmapped 0x1FFFFFF 0xF := by decide +kernel

/-- One word per row of the dma rows (R106). -/
theorem test_decode_dma :
    decode ⟨0x0000014, 0x6, 0xAABBCCDD⟩ = .rdDcsr 5 0x6 ∧
    decode ⟨0x8000014, 0x6, 0xAABBCCDD⟩ = .wrDcsr 5 0x6 0xAABBCCDD ∧
    decode ⟨0x00000F0, 0x6, 0xAABBCCDD⟩ = .rdDint 0x6 ∧
    decode ⟨0x80000F0, 0x6, 0xAABBCCDD⟩ = .wrDint 0x6 0xAABBCCDD ∧
    decode ⟨0x0000230, 0x6, 0xAABBCCDD⟩ = .rdDdadr 3 0x6 ∧
    decode ⟨0x8000230, 0x6, 0xAABBCCDD⟩ = .wrDdadr 3 0x6 0xAABBCCDD ∧
    decode ⟨0x0000294, 0x6, 0xAABBCCDD⟩ = .rdDsadr 9 0x6 ∧
    decode ⟨0x8000294, 0x6, 0xAABBCCDD⟩ = .wrDsadr 9 0x6 0xAABBCCDD ∧
    decode ⟨0x00002F8, 0x6, 0xAABBCCDD⟩ = .rdDtadr 15 0x6 ∧
    decode ⟨0x80002F8, 0x6, 0xAABBCCDD⟩ = .wrDtadr 15 0x6 0xAABBCCDD ∧
    decode ⟨0x000023C, 0x6, 0xAABBCCDD⟩ = .rdDcmd 3 0x6 ∧
    decode ⟨0x800023C, 0x6, 0xAABBCCDD⟩ = .wrDcmd 3 0x6 0xAABBCCDD := by decide +kernel

/-- One word per row of the timer rows (R107). -/
theorem test_decode_timer :
    decode ⟨0x0A0000C, 0x6, 0xAABBCCDD⟩ = .rdOsmr 3 0x6 ∧
    decode ⟨0x8A0000C, 0x6, 0xAABBCCDD⟩ = .wrOsmr 3 0x6 0xAABBCCDD ∧
    decode ⟨0x0A00010, 0x6, 0xAABBCCDD⟩ = .rdOscr 0x6 ∧
    decode ⟨0x8A00010, 0x6, 0xAABBCCDD⟩ = .wrOscr 0x6 0xAABBCCDD ∧
    decode ⟨0x0A00014, 0x6, 0xAABBCCDD⟩ = .rdOssr 0x6 ∧
    decode ⟨0x8A00014, 0x6, 0xAABBCCDD⟩ = .wrOssr 0x6 0xAABBCCDD ∧
    decode ⟨0x0A0001C, 0x6, 0xAABBCCDD⟩ = .rdOier 0x6 ∧
    decode ⟨0x8A0001C, 0x6, 0xAABBCCDD⟩ = .wrOier 0x6 0xAABBCCDD := by decide +kernel

/-- One word per row of the intc rows (R108). -/
theorem test_decode_intc :
    decode ⟨0x0D00000, 0x6, 0xAABBCCDD⟩ = .rdIcip 0x6 ∧
    decode ⟨0x8D00000, 0x6, 0xAABBCCDD⟩ = .wrIcip 0x6 0xAABBCCDD ∧
    decode ⟨0x0D00004, 0x6, 0xAABBCCDD⟩ = .rdIcmr 0x6 ∧
    decode ⟨0x8D00004, 0x6, 0xAABBCCDD⟩ = .wrIcmr 0x6 0xAABBCCDD ∧
    decode ⟨0x0D00008, 0x6, 0xAABBCCDD⟩ = .rdIclr 0x6 ∧
    decode ⟨0x8D00008, 0x6, 0xAABBCCDD⟩ = .wrIclr 0x6 0xAABBCCDD ∧
    decode ⟨0x0D0000C, 0x6, 0xAABBCCDD⟩ = .rdIcfp 0x6 ∧
    decode ⟨0x8D0000C, 0x6, 0xAABBCCDD⟩ = .wrIcfp 0x6 0xAABBCCDD ∧
    decode ⟨0x0D00010, 0x6, 0xAABBCCDD⟩ = .rdIcpr 0x6 ∧
    decode ⟨0x8D00010, 0x6, 0xAABBCCDD⟩ = .wrIcpr 0x6 0xAABBCCDD := by decide +kernel

/-- One word per row of the lcd rows (R109). -/
theorem test_decode_lcd :
    decode ⟨0x4000000, 0x6, 0xAABBCCDD⟩ = .rdLccr0 0x6 ∧
    decode ⟨0xC000000, 0x6, 0xAABBCCDD⟩ = .wrLccr0 0x6 0xAABBCCDD ∧
    decode ⟨0x4000008, 0x6, 0xAABBCCDD⟩ = .rdLccr2 0x6 ∧
    decode ⟨0xC000008, 0x6, 0xAABBCCDD⟩ = .wrLccr2 0x6 0xAABBCCDD ∧
    decode ⟨0x400000C, 0x6, 0xAABBCCDD⟩ = .rdLccr3 0x6 ∧
    decode ⟨0xC00000C, 0x6, 0xAABBCCDD⟩ = .wrLccr3 0x6 0xAABBCCDD ∧
    decode ⟨0x4000038, 0x6, 0xAABBCCDD⟩ = .rdLcsr 0x6 ∧
    decode ⟨0xC000038, 0x6, 0xAABBCCDD⟩ = .wrLcsr 0x6 0xAABBCCDD ∧
    decode ⟨0x4000210, 0x6, 0xAABBCCDD⟩ = .rdFdadr 1 0x6 ∧
    decode ⟨0xC000210, 0x6, 0xAABBCCDD⟩ = .wrFdadr 1 0x6 0xAABBCCDD ∧
    decode ⟨0x4000214, 0x6, 0xAABBCCDD⟩ = .rdFsadr 1 0x6 ∧
    decode ⟨0xC000214, 0x6, 0xAABBCCDD⟩ = .wrFsadr 1 0x6 0xAABBCCDD ∧
    decode ⟨0x4000218, 0x6, 0xAABBCCDD⟩ = .rdFidr 1 0x6 ∧
    decode ⟨0xC000218, 0x6, 0xAABBCCDD⟩ = .wrFidr 1 0x6 0xAABBCCDD ∧
    decode ⟨0x400021C, 0x6, 0xAABBCCDD⟩ = .rdLdcmd 1 0x6 ∧
    decode ⟨0xC00021C, 0x6, 0xAABBCCDD⟩ = .wrLdcmd 1 0x6 0xAABBCCDD := by decide +kernel

/-- One word per row of the gpio rows (R110). -/
theorem test_decode_gpio_1 :
    decode ⟨0x0E00000, 0x6, 0xAABBCCDD⟩ = .rdGplr0 0x6 ∧
    decode ⟨0x8E00000, 0x6, 0xAABBCCDD⟩ = .wrGplr0 0x6 0xAABBCCDD ∧
    decode ⟨0x0E00004, 0x6, 0xAABBCCDD⟩ = .rdGplr1 0x6 ∧
    decode ⟨0x8E00004, 0x6, 0xAABBCCDD⟩ = .wrGplr1 0x6 0xAABBCCDD ∧
    decode ⟨0x0E00008, 0x6, 0xAABBCCDD⟩ = .rdGplr2 0x6 ∧
    decode ⟨0x8E00008, 0x6, 0xAABBCCDD⟩ = .wrGplr2 0x6 0xAABBCCDD ∧
    decode ⟨0x0E0000C, 0x6, 0xAABBCCDD⟩ = .rdGpdr0 0x6 ∧
    decode ⟨0x8E0000C, 0x6, 0xAABBCCDD⟩ = .wrGpdr0 0x6 0xAABBCCDD ∧
    decode ⟨0x0E00010, 0x6, 0xAABBCCDD⟩ = .rdGpdr1 0x6 ∧
    decode ⟨0x8E00010, 0x6, 0xAABBCCDD⟩ = .wrGpdr1 0x6 0xAABBCCDD ∧
    decode ⟨0x0E00014, 0x6, 0xAABBCCDD⟩ = .rdGpdr2 0x6 ∧
    decode ⟨0x8E00014, 0x6, 0xAABBCCDD⟩ = .wrGpdr2 0x6 0xAABBCCDD ∧
    decode ⟨0x0E00018, 0x6, 0xAABBCCDD⟩ = .rdGpsr0 0x6 ∧
    decode ⟨0x8E00018, 0x6, 0xAABBCCDD⟩ = .wrGpsr0 0x6 0xAABBCCDD ∧
    decode ⟨0x0E0001C, 0x6, 0xAABBCCDD⟩ = .rdGpsr1 0x6 ∧
    decode ⟨0x8E0001C, 0x6, 0xAABBCCDD⟩ = .wrGpsr1 0x6 0xAABBCCDD ∧
    decode ⟨0x0E00020, 0x6, 0xAABBCCDD⟩ = .rdGpsr2 0x6 ∧
    decode ⟨0x8E00020, 0x6, 0xAABBCCDD⟩ = .wrGpsr2 0x6 0xAABBCCDD ∧
    decode ⟨0x0E00024, 0x6, 0xAABBCCDD⟩ = .rdGpcr0 0x6 ∧
    decode ⟨0x8E00024, 0x6, 0xAABBCCDD⟩ = .wrGpcr0 0x6 0xAABBCCDD ∧
    decode ⟨0x0E00028, 0x6, 0xAABBCCDD⟩ = .rdGpcr1 0x6 := by decide +kernel

/-- One word per row of the gpio rows (R110). -/
theorem test_decode_gpio_2 :
    decode ⟨0x8E00028, 0x6, 0xAABBCCDD⟩ = .wrGpcr1 0x6 0xAABBCCDD ∧
    decode ⟨0x0E0002C, 0x6, 0xAABBCCDD⟩ = .rdGpcr2 0x6 ∧
    decode ⟨0x8E0002C, 0x6, 0xAABBCCDD⟩ = .wrGpcr2 0x6 0xAABBCCDD ∧
    decode ⟨0x0E00030, 0x6, 0xAABBCCDD⟩ = .rdGrer0 0x6 ∧
    decode ⟨0x8E00030, 0x6, 0xAABBCCDD⟩ = .wrGrer0 0x6 0xAABBCCDD ∧
    decode ⟨0x0E00034, 0x6, 0xAABBCCDD⟩ = .rdGrer1 0x6 ∧
    decode ⟨0x8E00034, 0x6, 0xAABBCCDD⟩ = .wrGrer1 0x6 0xAABBCCDD ∧
    decode ⟨0x0E00038, 0x6, 0xAABBCCDD⟩ = .rdGrer2 0x6 ∧
    decode ⟨0x8E00038, 0x6, 0xAABBCCDD⟩ = .wrGrer2 0x6 0xAABBCCDD ∧
    decode ⟨0x0E0003C, 0x6, 0xAABBCCDD⟩ = .rdGfer0 0x6 ∧
    decode ⟨0x8E0003C, 0x6, 0xAABBCCDD⟩ = .wrGfer0 0x6 0xAABBCCDD ∧
    decode ⟨0x0E00040, 0x6, 0xAABBCCDD⟩ = .rdGfer1 0x6 ∧
    decode ⟨0x8E00040, 0x6, 0xAABBCCDD⟩ = .wrGfer1 0x6 0xAABBCCDD ∧
    decode ⟨0x0E00044, 0x6, 0xAABBCCDD⟩ = .rdGfer2 0x6 ∧
    decode ⟨0x8E00044, 0x6, 0xAABBCCDD⟩ = .wrGfer2 0x6 0xAABBCCDD ∧
    decode ⟨0x0E00048, 0x6, 0xAABBCCDD⟩ = .rdGedr0 0x6 ∧
    decode ⟨0x8E00048, 0x6, 0xAABBCCDD⟩ = .wrGedr0 0x6 0xAABBCCDD ∧
    decode ⟨0x0E0004C, 0x6, 0xAABBCCDD⟩ = .rdGedr1 0x6 ∧
    decode ⟨0x8E0004C, 0x6, 0xAABBCCDD⟩ = .wrGedr1 0x6 0xAABBCCDD ∧
    decode ⟨0x0E00050, 0x6, 0xAABBCCDD⟩ = .rdGedr2 0x6 ∧
    decode ⟨0x8E00050, 0x6, 0xAABBCCDD⟩ = .wrGedr2 0x6 0xAABBCCDD := by decide +kernel

/-- One word per row of the audio and unmapped rows (R111, R105; V10, V12). -/
theorem test_decode_audio_and_unmapped :
    decode ⟨0x0400044, 0x6, 0xAABBCCDD⟩ = .rdAudio 17 0x6 ∧
    decode ⟨0x8400044, 0x6, 0xAABBCCDD⟩ = .wrAudio 17 0x6 0xAABBCCDD ∧
    decode ⟨0x0400080, 0x6, 0xAABBCCDD⟩ = .rdAudioTop 0x6 ∧
    decode ⟨0x8400080, 0x6, 0xAABBCCDD⟩ = .wrAudioTop 0x6 0xAABBCCDD ∧
    decode ⟨0x0A00018, 0x6, 0xAABBCCDD⟩ = .rdUnmapped 0x280006 0x6 ∧
    decode ⟨0x8D00014, 0x6, 0xAABBCCDD⟩ = .wrUnmapped 0x340005 0x6 0xAABBCCDD := by decide +kernel

/-- The holes inside and after the ranges decode to RD.UNMAPPED (V7, V8, V11, V14, V15, V17, V18, V20). -/
theorem test_decode_holes :
    decode ⟨0x0000040, 0xF, 0⟩ = .rdUnmapped 0x10 0xF ∧ decode ⟨0x0000100, 0xF, 0⟩ = .rdUnmapped 0x40 0xF ∧
    decode ⟨0x0A00020, 0xF, 0⟩ = .rdUnmapped 0x280008 0xF ∧ decode ⟨0x0E00054, 0xF, 0⟩ = .rdUnmapped 0x380015 0xF ∧
    decode ⟨0x4000004, 0xF, 0⟩ = .rdUnmapped 0x1000001 0xF ∧ decode ⟨0x4000220, 0xF, 0⟩ = .rdUnmapped 0x1000088 0xF ∧
    decode ⟨0x7FFFFFC, 0xF, 0⟩ = .rdUnmapped 0x1FFFFFF 0xF ∧ decode ⟨0x0400084, 0xF, 0⟩ = .rdUnmapped 0x100021 0xF := by
  decide +kernel

/-- A number wider than CMD is rejected by name, the widest CMD is not (R100). -/
theorem test_decodeWord_rejects_wide_numbers :
    decodeTableWord 32 0x10000000 = none ∧ decodeTableWord 32 0x800000C = some (.wrDcsr 3 0xF 0) := by decide +kernel

/-- The encoder writes the words of program P2 and P3 (95_test_vectors.md part 3). -/
theorem test_encode_words :
    encode (.wrDdadr 3 0xF 0x1000) = ⟨0x8000230, 0xF, 0x1000⟩ ∧ encode (.rdDcmd 3 0xF) = ⟨0x000023C, 0xF, 0⟩ ∧
    encode (.wrFdadr 0 0xF 0x4000) = ⟨0xC000200, 0xF, 0x4000⟩ ∧ encode (.rdIcfp 0xF) = ⟨0x0D0000C, 0xF, 0⟩ := by decide

/-! ## One step on a small state -/

/-- A field of the next state, if there is one. -/
def after {α : Type} (r : Result) (field : State → α) : Option α :=
  match r with
  | .next t => some (field t)
  | _ => none

/-- What a read returns. -/
def reads (i : Instr) (s : State) : Option (Option Word) := after (exec i s) (·.rdata)

/-- A running DMA channel, one tick before its completion: 4 bytes from 0x2000 to 0x3000, both incrementing, with STOP and
ENDIRQEN. -/
def runningChannel : DmaChannel :=
  { DmaChannel.reset with run := true, ddadr := 0x1000, dsadr := 0x2000, dtadr := 0x3000, dcmd := 0xC0A10004, drem := 1 }

/-- The bytes A1 A2 A3 A4 at 0x2000. -/
def fourBytes : Memory := [(0x2000, 0xA1), (0x2001, 0xA2), (0x2002, 0xA3), (0x2003, 0xA4)]

/-- An image of plain memory with the given cells. -/
def plainImage (m : Memory) : Image := ⟨m, [], [], []⟩

/-- Channel 5 is the given channel, with `fourBytes` in memory. -/
def dmaState (c : DmaChannel) : State := (State.reset.setChan 5 c).setMem (plainImage fourBytes)

/-- A port at 0x2000, and one at 0x4000 to 0x4003, with eight answers waiting (E6 (b)). -/
def portImage : Image := ⟨[], [⟨0x2000, 0x2000⟩, ⟨0x4000, 0x4003⟩], [1, 2, 3, 4, 5, 6, 7, 8], []⟩

/-- Channel 5 copies eight bytes from the fixed address 0x2000 to 0x3000, and the port stands at 0x2000 (E6 (b)). -/
def portState : State := (State.reset.setChan 5 { runningChannel with dcmd := 0x40810008 }).setMem portImage

/-- The descriptor 0x1010, 0x2000, 0x3000, 0xFFFFFFFF at 0x1000. -/
def descriptorCells : Memory :=
  [(0x1000, 0x10), (0x1001, 0x10), (0x1002, 0), (0x1003, 0), (0x1004, 0), (0x1005, 0x20), (0x1006, 0), (0x1007, 0),
    (0x1008, 0), (0x1009, 0x30), (0x100A, 0), (0x100B, 0), (0x100C, 0xFF), (0x100D, 0xFF), (0x100E, 0xFF), (0x100F, 0xFF)]

/-- Channel 0's chain link points at a descriptor. -/
def kickState : State := (State.reset.setChan 0 { DmaChannel.reset with ddadr := 0x1000 }).setMem (plainImage descriptorCells)

/-- The timer unit of V22 and E7: slot 2 armed. -/
def timerState (t : Timer) : State := State.reset.setTimer t

/-- Slot 2 armed one tick ahead of its match, at the top of the counter's range. -/
def armedTimer : Timer := ⟨Vector.replicate 4 0, 0xFFFFFFFF, 0, 0xF, 0b0100⟩

/-- An LCD channel one tick before its end of frame: STOP, BINT, PF = 1, LLEN = 2, frame 0x2000, identifier 7. -/
def endingLcdChannel : LcdChannel := ⟨0x4000, 0x2000, 7, 0x00A10002, 1, FrameBuffer.empty⟩

/-- LCD channel 1 is the given channel, enabled, with `fourBytes` in memory. -/
def lcdState (c : LcdChannel) : State :=
  ((State.reset.setLcd { State.reset.lcd with lcden := 0b10 }).setLcdChan 1 c).setMem (plainImage fourBytes)

/-- GPIO bank 1 with pins 3 to 0 outputs and the given latches. -/
def gpioState (g : GpioBank) : State := State.reset.setBank 1 g

/-- A bank with pins 3 to 0 outputs, pin 0 driven, pins 0 and 4 reported high, both edges of pin 4 armed. -/
def someBank : GpioBank := ⟨0x0000000F, 0x00000001, 0x00000011, 0x00000010, 0x00000010, 0x00000030⟩

/-- RD.DCSR: the example of R31's layout, RUN at 31, REQ at 13:8, END at 2. -/
theorem test_rd_dcsr :
    reads (.rdDcsr 5 0xF) (dmaState { runningChannel with req := 0x3F, endFlag := true }) = some (some 0x80003F04) := by
  decide +kernel

/-- WR.DCSR: V25, then V26. -/
theorem test_wr_dcsr_stores :
    after (exec (.wrDcsr 3 0xF 0x7FFFFFFF) State.reset) (fun t => dcsrWord (t.chan 3)) = some 0x60003F00 := by
  decide +kernel

theorem test_wr_dcsr_kick_loads :
    after (exec (.wrDcsr 0 0x8 0x80000000) kickState)
      (fun t => ((t.chan 0).run, (t.chan 0).ddadr, (t.chan 0).dsadr, (t.chan 0).dtadr, (t.chan 0).dcmd)) =
      some (true, 0x1010, 0x2000, 0x3000, 0xF0A31FFF) := by decide +kernel

/-- RD.DINT and WR.DINT: P2's acknowledgement, DINT = 8. -/
theorem test_rd_dint : reads (.rdDint 0xF) (State.reset.setIrqp 0x0008) = some (some 0x00000008) := by decide +kernel

theorem test_wr_dint :
    after (exec (.wrDint 0xF 0x00000008) (State.reset.setIrqp 0x8008)) (fun t => (t.dma.irqp, t.intc.icpr)) =
      some (0x8000, 0x02000000) := by decide +kernel

theorem test_rd_ddadr : reads (.rdDdadr 5 0xF) (dmaState runningChannel) = some (some 0x1000) := by decide +kernel

theorem test_wr_ddadr :
    after (exec (.wrDdadr 5 0x1 0xFFFFFF04) (dmaState runningChannel)) (fun t => (t.chan 5).ddadr) = some 0x1004 := by
  decide +kernel

theorem test_rd_dsadr : reads (.rdDsadr 5 0xF) (dmaState runningChannel) = some (some 0x2000) := by decide +kernel

/-- WR.DSADR: V21. -/
theorem test_wr_dsadr :
    after (exec (.wrDsadr 1 0x6 0xAABBCCDD) (State.reset.setChan 1 { DmaChannel.reset with dsadr := 0x12345678 }))
      (fun t => (t.chan 1).dsadr) = some 0x12BBCC78 := by decide +kernel

theorem test_rd_dtadr : reads (.rdDtadr 5 0xF) (dmaState runningChannel) = some (some 0x3000) := by decide +kernel

theorem test_wr_dtadr :
    after (exec (.wrDtadr 5 0xC 0xAABBCCDD) (dmaState runningChannel)) (fun t => (t.chan 5).dtadr) = some 0xAABB3000 := by
  decide +kernel

theorem test_rd_dcmd : reads (.rdDcmd 5 0xF) (dmaState runningChannel) = some (some 0xC0A10004) := by decide +kernel

/-- WR.DCMD: V24. -/
theorem test_wr_dcmd :
    after (exec (.wrDcmd 0 0xF 0xFFFFFFFF) State.reset) (fun t => (t.chan 0).dcmd) = some 0xF0A31FFF := by decide +kernel

/-- A DMA completion: E6 (a) and P2's last tick, with STOP and ENDIRQEN. -/
theorem test_dma_fire :
    (dmaFire 5 (dmaState runningChannel)).mem.cells =
      fourBytes ++ [(0x3000, 0xA1), (0x3001, 0xA2), (0x3002, 0xA3), (0x3003, 0xA4)] ∧
    dcsrWord ((dmaFire 5 (dmaState runningChannel)).chan 5) = 0x00000004 ∧
    (dmaFire 5 (dmaState runningChannel)).dma.irqp = 0x0020 := by decide +kernel

/-- A fixed source on plain memory: E6 (b), two bytes of it. -/
theorem test_dma_fixed_source :
    (dmaFire 5 (dmaState { runningChannel with dcmd := 0x40810002 })).mem.cells =
      fourBytes ++ [(0x3000, 0xA1), (0x3001, 0xA1)] := by decide +kernel

/-- E6 (b) with a port at the source that returns 01 to 08 on eight reads: the target holds 01 to 08, every read is
recorded, and no answer is left. -/
theorem test_dma_port_source :
    (dmaFire 5 portState).mem =
      ⟨[(0x3000, 1), (0x3001, 2), (0x3002, 3), (0x3003, 4), (0x3004, 5), (0x3005, 6), (0x3006, 7), (0x3007, 8)],
        portImage.ports, [],
        [.read 0x2000 1, .read 0x2000 2, .read 0x2000 3, .read 0x2000 4, .read 0x2000 5, .read 0x2000 6, .read 0x2000 7,
          .read 0x2000 8]⟩ := by decide +kernel

/-- A port as the target takes every byte in order and plain memory stays (R71, R166). -/
theorem test_dma_port_target :
    (dmaFire 5 (State.reset.setChan 5 { runningChannel with dtadr := 0x4000, dcmd := 0x80810004 } |>.setMem
      { portImage with cells := fourBytes, ports := [⟨0x4000, 0x4003⟩] })).mem =
      ⟨fourBytes, [⟨0x4000, 0x4003⟩], portImage.answers,
        [.write 0x4000 0xA1, .write 0x4000 0xA2, .write 0x4000 0xA3, .write 0x4000 0xA4]⟩ := by decide +kernel

/-- A kick reads the sixteen bytes of its descriptor from a port in ascending order (R73, R79, R164). -/
theorem test_kick_reads_a_port :
    after (exec (.wrDcsr 0 0x8 0x80000000) (kickState.setMem
        ⟨[], [⟨0x1000, 0x100F⟩], [0x10, 0x10, 0, 0, 0, 0x20, 0, 0, 0, 0x30, 0, 0, 0xFF, 0xFF, 0xFF, 0xFF], []⟩))
      (fun t => ((t.chan 0).ddadr, (t.chan 0).dsadr, (t.chan 0).dtadr, (t.chan 0).dcmd)) = some (0x1010, 0x2000, 0x3000, 0xF0A31FFF) := by
  decide +kernel

/-- A byte that nothing has written, and the answer of a port whose script is used up, are free values (R71, R79). -/
theorem test_free_bytes :
    readByte Image.initial 0x2000 = Config.initialByte 0x2000 ∧
    readByte { portImage with answers := [], log := [.read 0x2000 5] } 0x2000 = Config.portByte 1 0x2000 := ⟨rfl, rfl⟩

/-- The environment's writes wrap at 2^32, and its ports are where it puts them (R71, R72, R88). -/
theorem test_environment :
    (envMemStep 0xFFFFFFFF [1, 2] State.reset).mem.cells = [(0, 2), (0xFFFFFFFF, 1)] ∧
    (envPortsStep portImage.ports portImage.answers State.reset).mem = portImage ∧
    portImage.isPort 0x2001 = false ∧ portImage.isPort 0x3FFF = false ∧ portImage.isPort 0x4003 = true ∧
    portImage.isPort 0x4004 = false := by decide +kernel

theorem test_rd_osmr :
    reads (.rdOsmr 2 0xF) (timerState { armedTimer with osmr := Vector.ofFn fun i => BitVec.ofNat 32 (10 * i.val) }) =
      some (some 20) := by decide +kernel

/-- WR.OSMR: P1's line, ARMED[0] = 1; and V29, no lane. -/
theorem test_wr_osmr :
    after (exec (.wrOsmr 0 0xF 0x00000003) State.reset) (fun t => (t.timer.osmr[0], t.timer.armed)) = some (3, 0b0001) := by
  decide +kernel

theorem test_wr_osmr_no_lane :
    after (exec (.wrOsmr 0 0x0 0x00000005) State.reset) (fun t => (t.timer.osmr[0], t.timer.armed)) = some (0, 0b0000) := by
  decide +kernel

theorem test_rd_oscr : reads (.rdOscr 0xF) (timerState armedTimer) = some (some 0xFFFFFFFF) := by decide +kernel

theorem test_wr_oscr :
    after (exec (.wrOscr 0xF 0x00005000) State.reset) (fun t => (t.timer.oscr, t.timer.armed)) = some (0x5000, 0b1111) := by
  decide +kernel

theorem test_rd_ossr : reads (.rdOssr 0xF) (timerState { armedTimer with ossr := 0b1010 }) = some (some 0xA) := by
  decide +kernel

/-- WR.OSSR: E7's acknowledgement of slot 0 leaves slot 3 pending on source 29. -/
theorem test_wr_ossr :
    after (exec (.wrOssr 0x1 0x00000001) (timerState { armedTimer with ossr := 0b1001 }))
      (fun t => (t.timer.ossr, t.intc.icpr)) = some (0b1000, 0x20000000) := by decide +kernel

theorem test_rd_oier : reads (.rdOier 0xF) (timerState armedTimer) = some (some 0xF) := by decide +kernel

/-- WR.OIER: V22, then V23. -/
theorem test_wr_oier :
    after (exec (.wrOier 0xF 0xFFFFFFFF) State.reset) (fun t => t.timer.oier) = some 0xF ∧
    after (exec (.wrOier 0xE 0x00000000) (timerState armedTimer)) (fun t => t.timer.oier) = some 0xF := by decide +kernel

/-- A match: the counter wraps to the match value 0 (R210, R212). -/
theorem test_tmr_fire :
    slotDue (countTick armedTimer) 2 = true ∧ (countTick armedTimer).oscr = 0 ∧
    (tmrFire 2 (timerState armedTimer)).timer.ossr = 0b0100 ∧ (tmrFire 2 (timerState armedTimer)).timer.armed = 0 := by
  decide +kernel

/-- Sources 8 and 26 pending, 26 masked in to the normal line, 8 to the fast line (E4). -/
def intcState : State := State.reset.setIntc ⟨0x04000100, 0x04000100, 0x00000100, true, true⟩

theorem test_rd_intc :
    reads (.rdIcip 0xF) intcState = some (some 0x04000000) ∧ reads (.rdIcfp 0xF) intcState = some (some 0x00000100) ∧
    reads (.rdIcpr 0xF) intcState = some (some 0x04000100) ∧ reads (.rdIcmr 0xF) intcState = some (some 0x04000100) ∧
    reads (.rdIclr 0xF) intcState = some (some 0x00000100) := by decide +kernel

/-- WR.ICMR and WR.ICLR move the lines in the same step (E4, P3): slot 0's source 26, then its routing. -/
theorem test_wr_icmr :
    after (exec (.wrIcmr 0xF 0x04000000) (timerState { armedTimer with ossr := 1 }))
      (fun t => (t.intc.icmr, t.intc.irqLine, t.intc.fiqLine)) = some (0x04000000, true, false) := by decide +kernel

theorem test_wr_iclr :
    after (exec (.wrIclr 0xF 0x04000000)
      ((timerState { armedTimer with ossr := 1 }).setIntc ⟨0x04000000, 0x04000000, 0, true, false⟩))
      (fun t => (t.intc.iclr, t.intc.irqLine, t.intc.fiqLine)) = some (0x04000000, false, true) := by decide +kernel

/-- The read-only registers: V31. -/
theorem test_wr_read_only :
    after (exec (.wrIcip 0xF 0xFFFFFFFF) State.reset) (·.intc) = some State.reset.intc ∧
    after (exec (.wrIcfp 0xF 0xFFFFFFFF) State.reset) (·.intc) = some State.reset.intc ∧
    after (exec (.wrIcpr 0xF 0xFFFFFFFF) State.reset) (·.intc) = some State.reset.intc ∧
    after (exec (.wrGplr0 0xF 0xFFFFFFFF) State.reset) (·.gpio) = some State.reset.gpio := by decide +kernel

theorem test_rd_lcd :
    reads (.rdLccr0 0xF) (lcdState endingLcdChannel) = some (some 2) ∧
    reads (.rdFdadr 1 0xF) (lcdState endingLcdChannel) = some (some 0x4000) ∧
    reads (.rdFsadr 1 0xF) (lcdState endingLcdChannel) = some (some 0x2000) ∧
    reads (.rdFidr 1 0xF) (lcdState endingLcdChannel) = some (some 7) ∧
    reads (.rdLdcmd 1 0xF) (lcdState endingLcdChannel) = some (some 0x00A10002) := by decide +kernel

/-- WR.LCCR0: an enable loads the branch descriptor; V32, lane 0 not written. -/
theorem test_wr_lccr0 :
    after (exec (.wrLccr0 0x1 0x00000001)
      ((State.reset.setLcdChan 0 { LcdChannel.reset with fdadr := 0x1000 }).setMem (plainImage descriptorCells)))
      (fun t => (t.lcd.lcden, (t.lcdChan 0).fdadr, (t.lcdChan 0).fsadr, (t.lcdChan 0).fidr, (t.lcdChan 0).ldcmd)) =
      some (0b01, 0x1010, 0x2000, 0x3000, 0x04A31FFF) := by decide +kernel

theorem test_wr_lccr0_other_lane :
    after (exec (.wrLccr0 0x2 0x00000003) State.reset) (fun t => t.lcd.lcden) = some 0 := by decide +kernel

/-- WR.LCCR2, WR.LCCR3 and WR.LDCMD: V27, V28; their reads. -/
theorem test_wr_lcd_fields :
    after (exec (.wrLccr2 0xF 0xFFFFFFFF) State.reset) (fun t => (t.lcd.lpp, lccr2Word t.lcd)) = some (0x3FF, 0x3FF) ∧
    after (exec (.wrLccr3 0xF 0xFFFFFFFF) State.reset) (fun t => (t.lcd.pcd, lccr3Word t.lcd)) = some (0xFF, 0xFF) ∧
    after (exec (.wrLdcmd 1 0xF 0xFFFFFFFF) State.reset) (fun t => (t.lcdChan 1).ldcmd) = some 0x04A31FFF := by
  decide +kernel

theorem test_rd_lcd_fields :
    reads (.rdLccr2 0xF) (State.reset.setLcd { State.reset.lcd with lpp := 0x2AA }) = some (some 0x2AA) ∧
    reads (.rdLccr3 0xF) (State.reset.setLcd { State.reset.lcd with pcd := 0x5A }) = some (some 0x5A) := by decide +kernel

theorem test_wr_lcd_addresses :
    after (exec (.wrFdadr 1 0xF 0x00004000) State.reset) (fun t => (t.lcdChan 1).fdadr) = some 0x4000 ∧
    after (exec (.wrFsadr 1 0x3 0xFFFF5000) State.reset) (fun t => (t.lcdChan 1).fsadr) = some 0x5000 ∧
    after (exec (.wrFidr 0 0x8 0xAABBCCDD) State.reset) (fun t => (t.lcdChan 0).fidr) = some 0xAA000000 := by
  decide +kernel

/-- RD.LCSR and WR.LCSR: LCSR = 0x11, then V65. -/
theorem test_rd_lcsr :
    reads (.rdLcsr 0xF) (State.reset.setLcd { State.reset.lcd with eof := 0b01, bs := 0b01 }) = some (some 0x11) := by
  decide +kernel

theorem test_wr_lcsr :
    after (exec (.wrLcsr 0xF 0x00000010) (State.reset.setLcd { State.reset.lcd with eof := 0b01, bs := 0b01 }))
      (fun t => (lcsrWord t.lcd, t.intc.icpr)) = some (0x00000001, 0) := by decide +kernel

/-- An end of frame with STOP and BINT on channel 1: two 16-bit pixels, LCSR = 0x22 (R264, R265). -/
theorem test_lcd_fire :
    ((lcdFire 1 (lcdState endingLcdChannel)).trace) = [.frameOut 1 7 1 2 [0xA2A1, 0xA4A3]] ∧
    lcsrWord (lcdFire 1 (lcdState endingLcdChannel)).lcd = 0x22 ∧
    (lcdFire 1 (lcdState endingLcdChannel)).lcd.lcden = 0 := by decide +kernel

/-- An invalid pixel format streams nothing: V59. -/
theorem test_lcd_invalid_format :
    (lcdFire 1 (lcdState { endingLcdChannel with ldcmd := 0x00830002 })).trace = [.frameOut 1 7 0 0 []] := by
  decide +kernel

/-- A palette load of two entries: R266 on the bytes A1 A2 A3 A4. -/
theorem test_lcd_palette :
    (lcdFire 1 (lcdState { endingLcdChannel with ldcmd := 0x04800002 })).lcd.palette[1] = 0xA4A3 := by decide +kernel

/-- The reads of a GPIO bank: V72's levels. -/
theorem test_rd_gpio :
    reads (.rdGplr0 0xF) (State.reset.setBank 0 ⟨1, 1, 2, 0, 0, 0⟩) = some (some 3) ∧
    reads (.rdGplr1 0xF) (gpioState someBank) = some (some 0x11) ∧ reads (.rdGpdr1 0xF) (gpioState someBank) = some (some 0xF) ∧
    reads (.rdGrer1 0xF) (gpioState someBank) = some (some 0x10) ∧ reads (.rdGfer1 0xF) (gpioState someBank) = some (some 0x10) ∧
    reads (.rdGedr1 0xF) (gpioState someBank) = some (some 0x30) ∧ reads (.rdGpsr1 0xF) (gpioState someBank) = some (some 0) ∧
    reads (.rdGpcr1 0xF) (gpioState someBank) = some (some 0) := by decide +kernel

/-- WR.GPDR: V66's first entry; an unchanged direction notifies nobody. -/
theorem test_wr_gpdr :
    after (exec (.wrGpdr0 0xF 0x0000000F) State.reset) (fun t => ((t.bank 0).gpdir, t.trace)) =
      some (0xF, [.gpioOut 0 0xF 0x0]) := by decide +kernel

theorem test_wr_gpdr_unchanged :
    after (exec (.wrGpdr1 0xF 0x0000000F) (gpioState someBank)) (·.trace) = some [] := by decide +kernel

/-- WR.GPSR: V66, input pins dropped; on input pins nothing happens. -/
theorem test_wr_gpsr :
    after (exec (.wrGpsr1 0xF 0x000000FF) (gpioState someBank)) (fun t => ((t.bank 1).gpout, t.trace)) =
      some (0xF, [.gpioOut 1 0xF 0xF]) := by decide +kernel

theorem test_wr_gpsr_inputs :
    after (exec (.wrGpsr0 0xF 0x000000FF) State.reset) (fun t => ((t.bank 0).gpout, t.trace)) = some (0, []) := by
  decide +kernel

/-- WR.GPCR: V66 and P4. -/
theorem test_wr_gpcr :
    after (exec (.wrGpcr1 0xF 0x00000003) (gpioState { someBank with gpout := 0xF }))
      (fun t => ((t.bank 1).gpout, t.trace)) = some (0xC, [.gpioOut 1 0xF 0xC]) := by decide +kernel

/-- WR.GRER, WR.GFER and WR.GEDR: V67's lines and its acknowledgement, GEDR = 2. -/
theorem test_wr_edges :
    after (exec (.wrGrer2 0xF 0x80000000) State.reset) (fun t => (t.bank 2).grer) = some 0x80000000 ∧
    after (exec (.wrGfer0 0xF 0x00000002) State.reset) (fun t => (t.bank 0).gfer) = some 2 := by decide +kernel

theorem test_wr_gedr :
    after (exec (.wrGedr0 0xF 0x00000001) (State.reset.setBank 0 { GpioBank.reset with gedr := 3 }))
      (fun t => ((t.bank 0).gedr, t.intc.icpr)) = some (2, 0x00000200) := by decide +kernel

/-- Every bank's rows act on their own bank (R300 to R313). -/
theorem test_gpio_banks :
    after (exec (.wrGpdr2 0xF 5) State.reset) (fun t => (t.bank 2).gpdir) = some 5 ∧
    after (exec (.wrGrer0 0xF 5) State.reset) (fun t => (t.bank 0).grer) = some 5 ∧
    after (exec (.wrGrer1 0xF 5) State.reset) (fun t => (t.bank 1).grer) = some 5 ∧
    after (exec (.wrGfer1 0xF 5) State.reset) (fun t => (t.bank 1).gfer) = some 5 ∧
    after (exec (.wrGfer2 0xF 5) State.reset) (fun t => (t.bank 2).gfer) = some 5 := by decide +kernel

/-- The `Pin` step: a rising edge on an armed input pin (V70), an output pin (V68), an unarmed edge (V67). -/
theorem test_pin_edge :
    ((pinStep 0 2 true (State.reset.setBank 0 { GpioBank.reset with grer := 4, gfer := 4 })).bank 0).gedr = 4 ∧
    (pinStep 0 2 true (State.reset.setBank 0 { GpioBank.reset with grer := 4, gfer := 4 })).intc.icpr = 0x400 ∧
    ((pinStep 1 0 true (State.reset.setBank 1 { GpioBank.reset with gpdir := 1, grer := 1 })).bank 1).gedr = 0 ∧
    ((pinStep 1 5 true State.reset).bank 1).gedr = 0 ∧ ((pinStep 1 5 true State.reset).bank 1).gpin = 0x20 := by
  decide +kernel

/-- RD.UNMAPPED reads 0 (R131), WR.UNMAPPED and WR.AUDIO change nothing (V30, R135). -/
theorem test_unmapped_and_audio :
    reads (.rdUnmapped 0x280006 0xF) State.reset = some (some 0) ∧
    after (exec (.wrUnmapped 0x340005 0xF 0xFFFFFFFF) State.reset) (fun t => (t.dma, t.intc, t.trace)) =
      some (State.reset.dma, State.reset.intc, []) ∧
    after (exec (.wrAudio 3 0xF 0xFFFFFFFF) State.reset) (fun t => (t.dma, t.intc, t.trace)) =
      some (State.reset.dma, State.reset.intc, []) ∧
    after (exec (.wrAudioTop 0xF 0xFFFFFFFF) State.reset) (fun t => (t.dma, t.intc, t.trace)) =
      some (State.reset.dma, State.reset.intc, []) := by decide +kernel

/-- RD.AUDIO returns the draw, whatever it is, and the next read makes a new draw (R134). -/
theorem test_rd_audio :
    exec (.rdAudio 31 0xF) State.reset = .next { State.reset with
      rdata := some (Config.audioRead 1 0x040007C), draws := 2 } ∧
    exec (.rdAudioTop 0xF) State.reset = .next { State.reset with
      rdata := some (Config.audioRead 1 0x0400080), draws := 2 } := ⟨rfl, rfl⟩

/-- The default durations and periods of V33's table and of E5, which the model does not read (R172, R277). -/
theorem test_default_parameters :
    (List.map (fun l => List.map (Config.defaultDmaDuration l) [0, 1, 2, 3]) [0, 8, 9, 17, 33, 8191]) =
      [[1, 1, 1, 1], [1, 1, 1, 1], [2, 2, 1, 1], [3, 3, 2, 1], [5, 5, 3, 2], [1024, 1024, 512, 256]] ∧
    Config.defaultLcdPeriod 1 2 = 6 := by decide

/-- The first step of the machine with the table's word of RD.DCSR in front reads 0 from reset (V73). -/
theorem test_fetch_word :
    after (step (State.reset.withFetchWord 32 0x0000014)) (fun t => (t.rdata, t.inbox)) = some (some 0, []) := by
  decide +kernel

/-- After a reset of a busy block the registers are 0 and the trace stays (R360, R361). -/
theorem test_reset_step :
    ((resetStep (dmaState runningChannel)).chan 5).run = false ∧
    (resetStep (dmaState runningChannel)).mem = plainImage fourBytes ∧
    (resetStep ((lcdState endingLcdChannel).emit (.gpioOut 0 1 1))).trace = [.gpioOut 0 1 1] := by decide +kernel

/-! ## Witnesses: concrete states and operands that meet the hypotheses of each statement -/

/-- A state with the given stimuli waiting. -/
def withInbox (s : State) (l : List Stimulus) : State := { s with inbox := l }

/-- A state with every kind of latched flag set, and channel 5 running. -/
def flagState : State :=
  (((State.reset.setTimer { Timer.reset with ossr := 0b1000 }).setIrqp 0x8000).setLcd
    { State.reset.lcd with eof := 0b10, bs := 0b10 }).setBank 2 { GpioBank.reset with gedr := 0x80000000 }
    |>.setChan 5 { runningChannel with endFlag := true, busErr := true }

theorem test_witness_DecodeOfEncodeIsTheInstruction :
    (Instr.wrUnmapped 0x1FFFFFF 0x0 0xFFFFFFFF).wellFormed = true ∧ (Instr.rdUnmapped 0x10 0xF).wellFormed = true ∧
    (Instr.rdDcsr 15 0xF).wellFormed = true := by decide

theorem test_witness_EncodedCommandsAreTheRegisterMap :
    (encode (.rdGedr2 0xF)).cmd.toNat = 0xE00050 ∧ (encode (.wrDcmd 15 0xF 0)).cmd.toNat = 0x8000000 + 0x2FC ∧
    (encode (.wrAudio 31 0xF 0)).cmd.toNat = 0x8000000 + 0x40007C := by decide

theorem test_witness_StepRunsTheDecodedAccess :
    (State.reset.withFetchWord 32 0x8000014).inbox = .access ⟨0x8000014, 0xF, 0⟩ :: [] ∧
    decode ⟨0x8000014, 0xF, 0⟩ = .wrDcsr 5 0xF 0 ∧ (Instr.wrDcsr 5 0xF 0).wellFormed = true := by decide +kernel

theorem test_witness_StepAppliesEveryOtherStimulus :
    (withInbox State.reset [.tick, .reset]).inbox = .tick :: [.reset] ∧
    (withInbox State.reset [.reset]).inbox = .reset :: [] ∧
    (withInbox State.reset [.pin 2 31 1]).inbox = .pin (2 : Bank).val 31 true.toNat :: [] ∧
    (withInbox State.reset [.pin 0 0 0]).inbox = .pin (0 : Bank).val 0 false.toNat :: [] ∧
    (withInbox State.reset [.mem 0xFFFFFFFF [1, 2]]).inbox = .mem 0xFFFFFFFF [1, 2] :: [] ∧
    ([1, 2] : List Byte)[1]? = some 2 ∧ ([1, 2] : List Byte)[0]? = some 1 ∧
    (0xFFFFFFFF : Word) + BitVec.ofNat 32 1 ≠ 0xFFFFFFFF + BitVec.ofNat 32 0 ∧
    (∀ k : Fin 2, (1 : Word) ≠ 0xFFFFFFFF + BitVec.ofNat 32 k) ∧
    (withInbox State.reset [.ports portImage.ports [9]]).inbox = .ports portImage.ports [9] :: [] ∧
    State.reset.inbox = [] := by
  decide +kernel

/-- Bank 3, pin 32 and level 2 are each refused; bank 2, pin 31, level 1 is not. -/
theorem test_witness_OnlyAPinOutsideItsPreconditionStops :
    step (withInbox State.reset [.pin 3 0 0]) = .refused (.pinOutsidePrecondition 3 0 0) ∧
    step (withInbox State.reset [.pin 2 32 1]) = .refused (.pinOutsidePrecondition 2 32 1) ∧
    step (withInbox State.reset [.pin 2 31 2]) = .refused (.pinOutsidePrecondition 2 31 2) ∧
    after (step (withInbox State.reset [.pin 2 31 1])) (fun t => (t.bank 2).gpin) = some 0x80000000 := by
  refine ⟨rfl, rfl, rfl, ?_⟩
  decide +kernel

/-- A running channel and an enabled LCD channel, both one tick before their event, meet the invariant, and the tick
answers a next state. -/
def invState : State :=
  withInbox ((lcdState { endingLcdChannel with lrem := 1 }).setChan 5 runningChannel) [.tick]

theorem test_witness_EveryStepKeepsTheInvariant : Inv invState ∧ ∃ t, step invState = .next t := by
  refine ⟨⟨?_, ?_, ?_, ?_, ?_, ?_, ?_⟩, _, rfl⟩
  · unfold RunningLive; decide +kernel
  · unfold EnabledLive; decide +kernel
  · unfold SourcesLatched; decide +kernel
  · unfold LinesDriven; decide +kernel
  · unfold ReservedZero; decide +kernel
  · unfold FramesSized; decide +kernel
  · decide +kernel

theorem test_witness_LanesDoNotMatterToAReadAndNoLaneStopsAWrite :
    (⟨0x0000014, 0x0, 0⟩ : Access).cmd.getLsbD 27 = false ∧ (⟨0x8000014, 0x0, 0⟩ : Access).cmd.getLsbD 27 = true ∧
    (⟨0x8000014, 0x0, 0⟩ : Access).be = 0 := by decide

theorem test_witness_AccessesTakeNoTimeAndLeaveMemory :
    after (exec (.wrDsadr 5 0xF 0) (dmaState runningChannel)) (fun t => (t.chan 5).run) = some true ∧
    ((dmaState runningChannel).chan 5).run = true ∧
    after (exec (.wrLccr0 0xF 3) (lcdState endingLcdChannel)) (fun t => t.lcd.lcden.getLsbD 1) = some true ∧
    (lcdState endingLcdChannel).lcd.lcden.getLsbD 1 = true ∧
    (∀ (ch : Channel) (d : Word), Instr.wrDsadr 5 0xF 0 ≠ .wrDcsr ch 0xF d) := by
  refine ⟨?_, ?_, ?_, ?_, fun _ _ h => by cases h⟩ <;> decide +kernel

/-- After a write of OIER every kind of flag of `flagState` is still 1. -/
theorem test_witness_AccessesNeverSetALatchedFlag :
    after (exec (.wrOier 0xF 0) flagState) (fun t =>
      [t.timer.ossr.getLsbD 3, t.dma.irqp.getLsbD 15, (t.chan 5).endFlag, (t.chan 5).busErr, t.lcd.eof.getLsbD 1,
        t.lcd.bs.getLsbD 1, (t.bank 2).gedr.getLsbD 31]) = some [true, true, true, true, true, true, true] := by
  decide +kernel

theorem test_witness_NoStepErasesTheTraceOrRaisesBusErr :
    after (step (withInbox flagState [.access ⟨0x8A0001C, 0xF, 0⟩])) (fun t => (t.chan 5).busErr) = some true := by
  decide +kernel

theorem test_witness_DmaCompletionEffect :
    (State.reset.chan 5).run = false ∧ ((dmaState runningChannel).chan 5).run = true ∧
    ((dmaState runningChannel).chan 5).dcmd.getLsbD 23 = true ∧
    ((dmaState { runningChannel with dcmd := 0xC0010004 }).chan 5).run = true ∧
    ((dmaState { runningChannel with dcmd := 0xC0010004 }).chan 5).dcmd.getLsbD 23 = false := by decide +kernel

theorem test_witness_DmaCopyIsTheForwardByteLoop :
    3 < (((dmaState runningChannel).chan 5).dcmd.extractLsb' 0 13).toNat ∧
    (dmaState runningChannel).mem.isPort (rangeAddr true 0x3000 3) = false := by decide +kernel

/-- Four bytes from 0x2000 to 0x3000, with no byte in both ranges; 0x3004 is the first byte after the target. -/
theorem test_witness_DmaCopyMovesTheRange :
    runningChannel.run = true ∧ runningChannel.dcmd.getLsbD 31 = true ∧ runningChannel.dcmd.getLsbD 30 = true ∧
    (runningChannel.dcmd.extractLsb' 0 13).toNat = 4 ∧
    PlainRun (dmaState runningChannel).mem 0x2000 4 ∧ PlainRun (dmaState runningChannel).mem 0x3000 4 ∧
    (∀ j k : Fin 4, runningChannel.dsadr + BitVec.ofNat 32 j ≠ runningChannel.dtadr + BitVec.ofNat 32 k) ∧
    ∀ k : Fin 4, (0x3004 : Word) ≠ rangeAddr (runningChannel.dcmd.getLsbD 30) runningChannel.dtadr k :=
  ⟨by decide, by decide, by decide, by decide, fun _ _ => rfl, fun _ _ => rfl, by decide +kernel, by decide +kernel⟩

/-- Fixed source 0x2000 into 0x3000 to 0x3003; 0x2000 to 0x2003 into the fixed target 0x3000; both fixed; and LEN = 1. All
of it is plain memory. -/
theorem test_witness_DmaFixedAddressModes :
    ({ runningChannel with dcmd := 0x40A10004 }).dcmd.getLsbD 31 = false ∧
    ({ runningChannel with dcmd := 0x40A10004 }).dcmd.getLsbD 30 = true ∧
    (∀ k : Fin 4, runningChannel.dsadr ≠ runningChannel.dtadr + BitVec.ofNat 32 k) ∧
    ({ runningChannel with dcmd := 0x80A10001 }).dcmd.getLsbD 31 = true ∧
    ({ runningChannel with dcmd := 0x80A10001 }).dcmd.getLsbD 30 = false ∧
    (({ runningChannel with dcmd := 0x80A10001 }).dcmd.extractLsb' 0 13).toNat = 1 ∧
    (∀ k : Fin 4, runningChannel.dtadr ≠ runningChannel.dsadr + BitVec.ofNat 32 k) ∧
    ((dmaState { runningChannel with dcmd := 0x80A10001 }).chan 5).run = true ∧
    ({ runningChannel with dcmd := 0x00A10001 }).dcmd.getLsbD 31 = false ∧
    ({ runningChannel with dcmd := 0x00A10001 }).dcmd.getLsbD 30 = false ∧
    ∀ a : Word, (dmaState { runningChannel with dcmd := 0x80A10001 }).mem.isPort a = false := by
  refine ⟨?_, ?_, ?_, ?_, ?_, ?_, ?_, ?_, ?_, ?_, fun _ => rfl⟩ <;> decide +kernel

/-- E6 (b): eight reads of a port at a fixed address into plain memory, eight answers waiting. -/
theorem test_witness_PortsAreReadAndWrittenInOrder_from_a_port :
    (portState.chan 5).run = true ∧ ((portState.chan 5).dcmd.extractLsb' 0 13).toNat = 8 ∧
    (∀ k : Fin 8, portState.mem.isPort
      (rangeAddr ((portState.chan 5).dcmd.getLsbD 31) (portState.chan 5).dsadr k) = true) ∧
    (∀ k : Fin 8, portState.mem.isPort
      (rangeAddr ((portState.chan 5).dcmd.getLsbD 30) (portState.chan 5).dtadr k) = false) ∧
    (portState.chan 5).dcmd.getLsbD 30 = true ∧ 8 ≤ portState.mem.answers.length ∧
    portState.mem.answers[7]? = some 8 := by decide +kernel

/-- Four bytes of plain memory to the port at 0x4000 to 0x4003, incrementing. -/
theorem test_witness_PortsAreReadAndWrittenInOrder_to_a_port :
    (∀ k : Fin 4, portImage.isPort (rangeAddr true 0x3000 k) = false) ∧
    ∀ k : Fin 4, portImage.isPort (rangeAddr true 0x4000 k) = true := by decide +kernel

/-- Plain memory and ports, single and in runs; 0x4003 is the last of four port addresses and 0x1FFF the last plain byte
before a port. -/
theorem test_witness_MemoryAccessorsAndRuns :
    portImage.isPort 0x1FFF = false ∧ portImage.isPort 0x2000 = true ∧ portImage.answers = 1 :: [2, 3, 4, 5, 6, 7, 8] ∧
    (∀ k : Fin 256, portImage.isPort (0x1F00 + BitVec.ofNat 32 k) = false) ∧
    (∀ k : Fin 4, portImage.isPort (0x4000 + BitVec.ofNat 32 k) = true) ∧ 4 ≤ portImage.answers.length := by
  decide +kernel

theorem test_witness_DmaCompletionFiresExactlyOnTime :
    ((dmaState { runningChannel with drem := 3 }).chan 5).run = true ∧
    2 < ((dmaState { runningChannel with drem := 3 }).chan 5).drem ∧ 1 ≤ ((dmaState runningChannel).chan 5).drem ∧
    ((dmaState runningChannel).chan 5).dcmd.getLsbD 21 = true := by decide +kernel

theorem test_witness_IdleChannelsStayStill :
    ((dmaState runningChannel).chan 4).run = false ∧ (lcdState endingLcdChannel).lcd.lcden.getLsbD 0 = false ∧
    (∀ ch : Channel, ((lcdState endingLcdChannel).chan ch).run = false) ∧
    (∀ ch : Channel, (State.reset.chan ch).run = false) ∧ State.reset.lcd.lcden = 0 := by decide +kernel

/-- Slot 2 of `armedTimer` matches at the next tick, across the wrap; a slot written to the present count waits 2^32
ticks; slot 0 is not armed. -/
theorem test_witness_SlotFiresExactlyOnTimeAndOnce :
    (timerState armedTimer).timer.armed.getLsbD 2 = true ∧
    ((timerState armedTimer).timer.osmr[2] - (timerState armedTimer).timer.oscr).toNat = 1 ∧
    (timerState { armedTimer with oscr := 0 }).timer.osmr[2] = (timerState { armedTimer with oscr := 0 }).timer.oscr ∧
    (timerState armedTimer).timer.armed.getLsbD 0 = false := by decide +kernel

/-- The conditions of E7 with slot 3, 100 ticks ahead. -/
def e7State : State :=
  (timerState ⟨Vector.replicate 4 0x5064, 0x5000, 0, 0b1000, 0b1000⟩).setIntc { Intc.reset with icmr := 0x20000000 }

theorem test_witness_LineRisesExactlyAtTheMatch :
    e7State.timer.armed.getLsbD 3 = true ∧ e7State.timer.ossr.getLsbD 3 = false ∧ e7State.timer.oier.getLsbD 3 = true ∧
    e7State.intc.icmr.getLsbD (26 + 3) = true ∧ e7State.intc.iclr.getLsbD (26 + 3) = false ∧
    e7State.timer.osmr[3] ≠ e7State.timer.oscr ∧ (e7State.timer.osmr[3] - e7State.timer.oscr).toNat = 100 ∧
    Settled (intcUpdate e7State) ∧ (intcUpdate e7State).timer = e7State.timer ∧
    (intcUpdate e7State).intc.icmr = e7State.intc.icmr ∧ (intcUpdate e7State).intc.iclr = e7State.intc.iclr := by
  refine ⟨?_, ?_, ?_, ?_, ?_, ?_, ?_, intcUpdate_settled e7State, rfl, rfl, rfl⟩ <;> decide +kernel

theorem test_witness_ReadOnlyAndForeignWritesChangeNothing :
    SourcesLatched (intcUpdate flagState) ∧ LinesDriven (intcUpdate flagState) ∧
    (intcUpdate flagState).intc.icpr = 0x02020400 := by
  refine ⟨?_, ?_, ?_⟩
  · unfold SourcesLatched; decide +kernel
  · unfold LinesDriven; decide +kernel
  · decide +kernel

/-- Each of the four stimuli answers a next state. -/
theorem test_witness_EveryBlockStepSettlesTheLines :
    (∃ t, step (withInbox flagState [.tick]) = .next t) ∧ (∃ t, step (withInbox flagState [.reset]) = .next t) ∧
    (∃ t, step (withInbox flagState [.pin 0 31 1]) = .next t) ∧
    (∃ t, step (withInbox flagState [.access ⟨0x8D00004, 0x8, 0⟩]) = .next t) ∧
    (⟨0x8D00004, 0x8, 0⟩ : Access).cmd.getLsbD 27 = true ∧ (⟨0x8D00004, 0x8, 0⟩ : Access).be ≠ 0 ∧
    Settled (withInbox (intcUpdate flagState) [.mem 0 [1]]) ∧
    ∃ t, step (withInbox (intcUpdate flagState) [.mem 0 [1]]) = .next t :=
  ⟨⟨_, rfl⟩, ⟨_, rfl⟩, ⟨_, rfl⟩, ⟨_, rfl⟩, by decide, by decide,
    intcUpdate_settled (withInbox flagState [.mem 0 [1]]), ⟨_, rfl⟩⟩

/-- Channel 0 is disabled, channel 1 enabled; descriptors with and without PAL and STOP. -/
theorem test_witness_LcdEndOfFrameEffect :
    (lcdState endingLcdChannel).lcd.lcden.getLsbD 0 = false ∧ (lcdState endingLcdChannel).lcd.lcden.getLsbD 1 = true ∧
    endingLcdChannel.ldcmd.getLsbD 26 = false ∧ endingLcdChannel.ldcmd.getLsbD 23 = true ∧
    ({ endingLcdChannel with ldcmd := 0x04000003 }).ldcmd.getLsbD 26 = true ∧
    ({ endingLcdChannel with ldcmd := 0x04000003 }).ldcmd.getLsbD 23 = false := by decide +kernel

/-- Formats 0, 1, 2 and 3, all of it plain memory; with LPP = 0 and LLEN = 2, line 0 and pixel 1 are the last ones. -/
theorem test_witness_LcdStreamedPixels :
    (lcdState endingLcdChannel).lcd.lcden.getLsbD 1 = true ∧ endingLcdChannel.ldcmd.getLsbD 26 = false ∧
    (endingLcdChannel.ldcmd.extractLsb' 0 13).toNat = 2 ∧ (endingLcdChannel.ldcmd.extractLsb' 16 2).toNat = 1 ∧
    ((lcdFire 1 (lcdState endingLcdChannel)).lcdChan 1).fb.lines = 1 ∧
    ({ endingLcdChannel with ldcmd := 0x00A00002 }).ldcmd.getLsbD 26 = false ∧
    (({ endingLcdChannel with ldcmd := 0x00A00002 }).ldcmd.extractLsb' 16 2).toNat = 0 ∧
    (({ endingLcdChannel with ldcmd := 0x00A20002 }).ldcmd.extractLsb' 16 2).toNat = 2 ∧
    (({ endingLcdChannel with ldcmd := 0x00A30002 }).ldcmd.extractLsb' 16 2).toNat = 3 ∧
    PlainRun (lcdState endingLcdChannel).mem 0x2000 4 := by
  refine ⟨?_, ?_, ?_, ?_, ?_, ?_, ?_, ?_, ?_, fun _ _ => rfl⟩ <;> decide +kernel

/-- Three entries loaded, entry 2 the last of them and entry 3 the first that stays; with LLEN = 8191 all 256 load. -/
theorem test_witness_LcdPaletteLoadFillsTheFirstEntries :
    (lcdState { endingLcdChannel with ldcmd := 0x04000003 }).lcd.lcden.getLsbD 1 = true ∧
    ({ endingLcdChannel with ldcmd := 0x04000003 }).ldcmd.getLsbD 26 = true ∧
    2 < min ((({ endingLcdChannel with ldcmd := 0x04000003 }).ldcmd.extractLsb' 0 13).toNat) 256 ∧
    min ((({ endingLcdChannel with ldcmd := 0x04000003 }).ldcmd.extractLsb' 0 13).toNat) 256 ≤ 3 ∧
    255 < min ((({ endingLcdChannel with ldcmd := 0x04001FFF }).ldcmd.extractLsb' 0 13).toNat) 256 := by decide +kernel

theorem test_witness_LcdEndOfFrameFiresExactlyOnTime :
    (lcdState { endingLcdChannel with ldcmd := 0x00010002, lrem := 6 }).lcd.lcden.getLsbD 1 = true ∧
    5 < ((lcdState { endingLcdChannel with ldcmd := 0x00010002, lrem := 6 }).lcdChan 1).lrem ∧
    1 ≤ ((lcdState endingLcdChannel).lcdChan 1).lrem ∧
    ((lcdState { endingLcdChannel with ldcmd := 0x00010002, lrem := 6 }).lcdChan 1).ldcmd.getLsbD 23 = false := by
  decide +kernel

theorem test_witness_PinStepDetectsArmedEdgesOnInputPins :
    (31 : Nat) < 32 ∧ ((pinStep 2 31 true (State.reset.setBank 2 { GpioBank.reset with grer := 0x80000000 })).bank 2).gedr =
      0x80000000 := by decide +kernel

/-- 0x3004 is the first byte after the target range of the one due channel; two ticks before a completion, and with an
LCD channel two ticks before its end of frame, nothing is due. -/
theorem test_witness_TickLeavesTheRest :
    (∀ (ch : Channel) (k : Nat), ((dmaState runningChannel).chan ch).run = true →
      ((dmaState runningChannel).chan ch).drem ≤ 1 → k < (((dmaState runningChannel).chan ch).dcmd.extractLsb' 0 13).toNat →
      (0x3004 : Word) ≠ rangeAddr (((dmaState runningChannel).chan ch).dcmd.getLsbD 30)
        ((dmaState runningChannel).chan ch).dtadr k) ∧
    (∀ n : LcdCh, (lcdState { endingLcdChannel with lrem := 2 }).lcd.lcden.getLsbD n = true →
      2 ≤ ((lcdState { endingLcdChannel with lrem := 2 }).lcdChan n).lrem) ∧
    ∀ ch : Channel, ((dmaState { runningChannel with drem := 2 }).chan ch).run = true →
      2 ≤ ((dmaState { runningChannel with drem := 2 }).chan ch).drem := by
  refine ⟨fun ch k hr _ hk => ?_, by decide +kernel, by decide +kernel⟩
  have h5 : ∀ ch : Channel, ((dmaState runningChannel).chan ch).run = true → ch = 5 := by decide +kernel
  obtain rfl := h5 ch hr
  have hall : ∀ k : Fin 4, (0x3004 : Word) ≠ rangeAddr true 0x3000 k := by decide +kernel
  exact hall ⟨k, hk⟩

/-- Three events of three units, and another order of them; used by both statements on the tie order. -/
theorem test_witness_TieOrderIsEveryTotalOrder :
    [Event.tmr 0, .dma 0, .lcd 0].Nodup ∧ [Event.lcd 0, .tmr 0, .dma 0].Perm [Event.tmr 0, .dma 0, .lcd 0] := by decide

theorem test_witness_FlagsDoNotDependOnTheTieOrder :
    [Event.dma 0, .dma 15, .lcd 1].Nodup ∧ [Event.lcd 1, .dma 15, .dma 0].Perm [Event.dma 0, .dma 15, .lcd 1] := by decide

end Sys2Proof.Tests
end

section
/-! ## One step of the machine, stimulus by stimulus

A step takes the first stimulus out of the inbox and applies it (00_scope.md R12). Which stimulus stands first decides
what the step does. -/

namespace Sys2Proof.Machine

/-- With no stimulus waiting a step leaves the state (log entry 1). -/
theorem step_of_inbox_nil {s : State} (h : s.inbox = []) : step s = .next s := by
  simp only [step, h]

theorem step_of_inbox_cons {s : State} {x : Stimulus} {rest : List Stimulus} (h : s.inbox = x :: rest) :
    step s = applyStimulus x { s with inbox := rest } := by
  simp only [step, h]

/-- A pin notification within its precondition is never refused (45_gpio.md R315). -/
theorem pinOrRefuse_of_lt {p : Nat} (hp : p < 32) (b : Bank) (level : Bool) (s : State) :
    pinOrRefuse b.val p level.toNat s = .next (pinStep b p level s) := by
  have hl : level.toNat < 2 := level.toNat_lt
  have hb : (level.toNat == 1) = level := by cases level <;> rfl
  simp [pinOrRefuse, hp, hl, hb]

/-- The environment's own change of memory moves its bytes only; other plain memory and the ports stay (20_memory.md
R72, R88). -/
theorem envMemStep_image (a : Word) (bytes : List Byte) (s : State) :
    ∃ m : Image, envMemStep a bytes s = { s with mem := m } ∧
      (∀ k v, bytes[k]? = some v →
        (∀ j, k < j → j < bytes.length → a + BitVec.ofNat 32 j ≠ a + BitVec.ofNat 32 k) →
        plainByte m (a + BitVec.ofNat 32 k) = v) ∧
      (∀ x : Word, (∀ k, k < bytes.length → x ≠ a + BitVec.ofNat 32 k) → plainByte m x = plainByte s.mem x) ∧
      m.ports = s.mem.ports ∧ m.answers = s.mem.answers ∧ m.log = s.mem.log := by
  obtain ⟨written, others⟩ := plainByte_putBytes s.mem a bytes
  exact ⟨_, rfl, written, others, rfl, rfl, rfl⟩

/-- Settles O9: which stimulus stands first fixes the step; the image of the environment's own change of memory is the one
of `envMemStep_image`. -/
theorem stepAppliesEveryOtherStimulus : Obligations.StepAppliesEveryOtherStimulus := by
  intro s rest
  refine ⟨fun tick => ?_, fun reset => ?_, fun b p level hp pin => ?_, fun a bytes mem => ?_,
    fun ranges answers ports => ?_, step_of_inbox_nil⟩
  · rw [step_of_inbox_cons tick, applyStimulus]
  · rw [step_of_inbox_cons reset, applyStimulus]
  · rw [step_of_inbox_cons pin, applyStimulus, pinOrRefuse_of_lt hp]
  · obtain ⟨m, image, written, others, sameScript⟩ := envMemStep_image a bytes { s with inbox := rest }
    refine ⟨m, ?_, written, others, sameScript⟩
    rw [step_of_inbox_cons mem, applyStimulus, image]
  · rw [step_of_inbox_cons ports, applyStimulus]
    rfl

end Sys2Proof.Machine
end

section
/-! ## What software can do, said once

Every access is a read, which moves only the model's own fields, or a write, whose effect touches one unit and is followed
by `IntcUpdate` (40_dispatcher.md R130). The effects are taken unit by unit; `exec_leaves` then takes every access apart, and
what accesses keep is read off it. -/

namespace Sys2Proof.Machine

/-! ### Bits that are only cleared -/

/-- Every bit of `new` that is 1 is 1 in `old`. -/
def BitsWithin {w : Nat} (new old : BitVec w) : Prop := ∀ k, new.getLsbD k = true → old.getLsbD k = true

theorem BitsWithin.refl {w : Nat} (v : BitVec w) : BitsWithin v v := fun _ h => h

theorem BitsWithin.trans {w : Nat} {u v v' : BitVec w} (h : BitsWithin v u) (h' : BitsWithin v' v) : BitsWithin v' u :=
  fun k hk => h k (h' k hk)

/-- A write-one-to-clear sets no bit (10_state.md R24). -/
theorem w1c_within (old d m w : Word) : BitsWithin (w1c old d m w) old := by
  intro k hk
  simp only [w1c, BitVec.getLsbD_and, Bool.and_eq_true] at hk
  exact hk.1

/-- A write-one-to-clear of a register whose word is a narrower vector sets no bit of the vector. -/
theorem w1c_setWidth_within {n : Nat} (v : BitVec n) (d m w : Word) :
    BitsWithin ((w1c (v.setWidth 32) d m w).setWidth n) v := by
  intro k hk
  rw [BitVec.getLsbD_setWidth, Bool.and_eq_true] at hk
  have held := w1c_within _ _ _ _ k hk.2
  rw [BitVec.getLsbD_setWidth, Bool.and_eq_true] at held
  exact held.2

theorem clearFlag_within {flag : Bool} {k : Nat} {be : Lanes} {d : Word} (h : clearFlag flag k be d = true) :
    flag = true := by
  rw [clearFlag, Bool.and_eq_true] at h
  exact h.1

/-- `RD.LCSR`'s word, bit by bit (R46). -/
theorem lcsrWord_bit (l : Lcd) (k : Nat) (hk : k < 32) :
    (lcsrWord l).getLsbD k = ((!decide (k < 4) && l.bs.getLsbD (k - 4)) || l.eof.getLsbD k) := by
  simp [lcsrWord, hk]

/-- A write of LCSR sets no end-of-frame flag. -/
theorem lcsr_eof_within (l : Lcd) (d m w : Word) : BitsWithin ((w1c (lcsrWord l) d m w).extractLsb' 0 2) l.eof := by
  intro k hk
  rw [BitVec.getLsbD_extractLsb', Bool.and_eq_true, decide_eq_true_iff] at hk
  obtain ⟨hk2, hbit⟩ := hk
  have held := w1c_within _ _ _ _ _ hbit
  rw [lcsrWord_bit _ _ (by omega)] at held
  have : k < 4 := by omega
  simpa [this] using held

/-- A write of LCSR sets no branch flag. -/
theorem lcsr_bs_within (l : Lcd) (d m w : Word) : BitsWithin ((w1c (lcsrWord l) d m w).extractLsb' 4 2) l.bs := by
  intro k hk
  rw [BitVec.getLsbD_extractLsb', Bool.and_eq_true, decide_eq_true_iff] at hk
  obtain ⟨hk2, hbit⟩ := hk
  have held := w1c_within _ _ _ _ _ hbit
  rw [lcsrWord_bit _ _ (by omega), bit_high l.eof (4 + k) (by omega)] at held
  simpa using held

/-! ### Reserved bits -/

/-- A lane-masked write of the writable bits w leaves the other bits. -/
theorem merge_reserved (old d m w : Word) : merge old d m w &&& ~~~w = old &&& ~~~w := by
  refine BitVec.eq_of_getLsbD_eq fun k hk => ?_
  rw [BitVec.getLsbD_and, BitVec.getLsbD_and, merge_bit _ _ _ _ _ hk, BitVec.getLsbD_not]
  cases w.getLsbD k <;> simp

/-- A word masked with the writable bits has no reserved bit. -/
theorem masked_reserved (v w : Word) : (v &&& w) &&& ~~~w = 0 := by
  rw [BitVec.and_assoc, BitVec.and_not_self]; exact BitVec.and_zero

/-! ### What an effect keeps of a channel -/

/-- Nothing a DMA channel must keep is lost from c to c': the countdown of a running channel is live (10_state.md R65 (a)),
reserved bits are 0 (R65 (e)), and no flag BUSERR is raised (R31). -/
structure KeepsChannel (c c' : DmaChannel) : Prop where
  live : (c.run = true → 1 ≤ c.drem) → c'.run = true → 1 ≤ c'.drem
  reserved : c.dcmd &&& ~~~wDcmd = 0 → c'.dcmd &&& ~~~wDcmd = 0
  busErr : c'.busErr = true → c.busErr = true

theorem KeepsChannel.refl (c : DmaChannel) : KeepsChannel c c := ⟨id, id, id⟩

theorem KeepsChannel.trans {c c' c'' : DmaChannel} (h : KeepsChannel c c') (h' : KeepsChannel c' c'') :
    KeepsChannel c c'' :=
  ⟨fun live => h'.live (h.live live), fun zero => h'.reserved (h.reserved zero), fun raised => h.busErr (h'.busErr raised)⟩

/-- Nothing an LCD channel must keep is lost from c with enable e to c' with enable e' (R65 (b), (e), (f)). -/
structure KeepsLcdChannel (e e' : Bool) (c c' : LcdChannel) : Prop where
  live : (e = true → 1 ≤ c.lrem) → e' = true → 1 ≤ c'.lrem
  reserved : c.ldcmd &&& ~~~wLdcmd = 0 → c'.ldcmd &&& ~~~wLdcmd = 0
  sized : c.fb.pix.length = c.fb.lines * c.fb.llen → c'.fb.pix.length = c'.fb.lines * c'.fb.llen

theorem KeepsLcdChannel.refl (e : Bool) (c : LcdChannel) : KeepsLcdChannel e e c c := ⟨id, id, id⟩

theorem KeepsLcdChannel.trans {e e' e'' : Bool} {c c' c'' : LcdChannel} (h : KeepsLcdChannel e e' c c')
    (h' : KeepsLcdChannel e' e'' c' c'') : KeepsLcdChannel e e'' c c'' :=
  ⟨fun live => h'.live (h.live live), fun zero => h'.reserved (h.reserved zero), fun size => h'.sized (h.sized size)⟩

theorem loadedChannel_live (m : Image) (c : DmaChannel) : 1 ≤ (loadedChannel m c).drem := Nat.le_add_left 1 _

theorem loadedChannel_reserved (m : Image) (c : DmaChannel) : (loadedChannel m c).dcmd &&& ~~~wDcmd = 0 :=
  masked_reserved _ _

theorem loadedLcdChannel_live (m : Image) (lpp : BitVec 10) (pcd : BitVec 8) (c : LcdChannel) :
    1 ≤ (loadedLcdChannel m lpp pcd c).lrem := Nat.le_add_left 1 _

theorem loadedLcdChannel_reserved (m : Image) (lpp : BitVec 10) (pcd : BitVec 8) (c : LcdChannel) :
    (loadedLcdChannel m lpp pcd c).ldcmd &&& ~~~wLdcmd = 0 := masked_reserved _ _

/-- `WR.DCSR` keeps its channel: a start loads a live countdown, a channel that stays running keeps its own (R151). -/
theorem writtenChannel_keeps (be : Lanes) (d : Word) (s : State) (ch : Channel) :
    KeepsChannel (s.chan ch) (writtenChannel be d s ch) := by
  have merged_busErr : (dcsrMerged (s.chan ch) be d).busErr = true → (s.chan ch).busErr = true := clearFlag_within
  unfold writtenChannel
  simp only
  split
  · next start =>
    exact ⟨fun _ _ => loadedChannel_live _ _, fun _ => loadedChannel_reserved _ _, merged_busErr⟩
  · next stays =>
    refine ⟨fun live running => live ?_, id, merged_busErr⟩
    simpa [running] using stays

theorem writtenChannel_endFlag {be : Lanes} {d : Word} {s : State} {ch : Channel}
    (h : (writtenChannel be d s ch).endFlag = true) : (s.chan ch).endFlag = true := by
  unfold writtenChannel at h
  simp only at h
  split at h
  · exact clearFlag_within h
  · exact clearFlag_within h

@[simp] theorem writtenImage_cells (be : Lanes) (d : Word) (s : State) (ch : Channel) :
    (writtenImage be d s ch).cells = s.mem.cells := by
  unfold writtenImage
  split
  · exact runImage_cells _ _ _
  · rfl

@[simp] theorem startedImage_cells (n : LcdCh) (be : Lanes) (d : Word) (s : State) :
    (startedImage n be d s).cells = s.mem.cells := by
  unfold startedImage
  split
  · exact runImage_cells _ _ _
  · rfl

/-- `WR.LCCR0`'s part for channel n keeps every channel: a start loads a live countdown (R251, R261). -/
theorem lccr0WriteBit_keeps (n k : LcdCh) (be : Lanes) (d : Word) (s : State) :
    KeepsLcdChannel (s.lcd.lcden.getLsbD k) ((lccr0WriteBit n be d s).lcd.lcden.getLsbD k) (s.lcdChan k)
      ((lccr0WriteBit n be d s).lcdChan k) := by
  rw [lccr0WriteBit_lcdChan, lccr0WriteBit_lcden]
  by_cases start : k = n ∧ startsLcd n be d s = true
  · rw [if_pos start]
    obtain ⟨rfl, -⟩ := start
    exact ⟨fun _ _ => loadedLcdChannel_live _ _ _ _, fun _ => loadedLcdChannel_reserved _ _ _ _, id⟩
  · rw [if_neg start]
    refine ⟨fun live enabled => live ?_, id, id⟩
    split at enabled
    · next written =>
      obtain ⟨rfl, lane⟩ := written
      simpa [startsLcd, lane, enabled] using start
    · exact enabled

/-! ### What every effect and event keeps -/

/-- What nothing in the machine loses from s to t: what each channel must keep, the canonical form of the plain memory,
and every entry of the output trace in its place (R62). -/
structure Keeps (s t : State) : Prop where
  dma : ∀ ch, KeepsChannel (s.chan ch) (t.chan ch)
  lcd : ∀ n : LcdCh, KeepsLcdChannel (s.lcd.lcden.getLsbD n) (t.lcd.lcden.getLsbD n) (s.lcdChan n) (t.lcdChan n)
  memory : Memory.wf s.mem.cells = true → Memory.wf t.mem.cells = true
  trace : ∃ l, t.trace = s.trace ++ l

theorem trace_kept {l l' : List OutEvent} (h : l' = l) : ∃ r, l' = l ++ r := ⟨[], by simp [h]⟩

/-- A change that leaves the DMA engine and the LCD controller keeps what they must keep. -/
theorem Keeps.of_units {s t : State} (dma : t.dma = s.dma) (lcd : t.lcd = s.lcd)
    (memory : Memory.wf s.mem.cells = true → Memory.wf t.mem.cells = true) (trace : ∃ l, t.trace = s.trace ++ l) :
    Keeps s t where
  dma := fun ch => by simpa only [State.chan, dma] using KeepsChannel.refl _
  lcd := fun n => by simpa only [State.lcdChan, lcd] using KeepsLcdChannel.refl _ _
  memory := memory
  trace := trace

theorem Keeps.trans {s t u : State} (h : Keeps s t) (h' : Keeps t u) : Keeps s u where
  dma := fun ch => (h.dma ch).trans (h'.dma ch)
  lcd := fun n => (h.lcd n).trans (h'.lcd n)
  memory := fun wf => h'.memory (h.memory wf)
  trace := by
    obtain ⟨l, hl⟩ := h.trace
    obtain ⟨l', hl'⟩ := h'.trace
    exact ⟨l ++ l', by rw [hl', hl, List.append_assoc]⟩

/-- Every latched flag of t that is 1 is 1 in s (10_state.md R24); BUSERR is in `Keeps`. -/
structure FlagsWithin (s t : State) : Prop where
  ossr : BitsWithin t.timer.ossr s.timer.ossr
  irqp : BitsWithin t.dma.irqp s.dma.irqp
  endFlag : ∀ ch : Channel, (t.chan ch).endFlag = true → (s.chan ch).endFlag = true
  eof : BitsWithin t.lcd.eof s.lcd.eof
  bs : BitsWithin t.lcd.bs s.lcd.bs
  gedr : ∀ b : Bank, BitsWithin (t.bank b).gedr (s.bank b).gedr

/-- What the effect of a write does: it keeps what must be kept, and sets no latched flag. -/
structure SoftwareEffect (s t : State) : Prop where
  keeps : Keeps s t
  flags : FlagsWithin s t

/-! ### The effect of a write, unit by unit -/

namespace SoftwareEffect

theorem refl (s : State) : SoftwareEffect s s where
  keeps := .of_units rfl rfl id (trace_kept rfl)
  flags := ⟨.refl _, .refl _, fun _ => id, .refl _, .refl _, fun _ => .refl _⟩

theorem trans {s t u : State} (h : SoftwareEffect s t) (h' : SoftwareEffect t u) : SoftwareEffect s u where
  keeps := h.keeps.trans h'.keeps
  flags :=
    { ossr := h.flags.ossr.trans h'.flags.ossr
      irqp := h.flags.irqp.trans h'.flags.irqp
      endFlag := fun ch he => h.flags.endFlag ch (h'.flags.endFlag ch he)
      eof := h.flags.eof.trans h'.flags.eof
      bs := h.flags.bs.trans h'.flags.bs
      gedr := fun b => (h.flags.gedr b).trans (h'.flags.gedr b) }

theorem of_timer (s : State) {v : Timer} (h : BitsWithin v.ossr s.timer.ossr) : SoftwareEffect s (s.setTimer v) where
  keeps := .of_units rfl rfl id (trace_kept rfl)
  flags := { (refl s).flags with ossr := h }

theorem of_irqp (s : State) {v : BitVec 16} (h : BitsWithin v s.dma.irqp) : SoftwareEffect s (s.setIrqp v) where
  keeps := { (refl s).keeps with }
  flags := { (refl s).flags with irqp := h }

theorem of_intc (s : State) (v : Intc) : SoftwareEffect s (s.setIntc v) where
  keeps := .of_units rfl rfl id (trace_kept rfl)
  flags := { (refl s).flags with }

/-- An effect on one DMA channel, and perhaps on what the ports have seen. -/
theorem of_channel {s : State} {ch : Channel} {c : DmaChannel} {m : Image} (hc : KeepsChannel (s.chan ch) c)
    (he : c.endFlag = true → (s.chan ch).endFlag = true) (hm : m.cells = s.mem.cells) :
    SoftwareEffect s ((s.setChan ch c).setMem m) where
  keeps :=
    { dma := fun k => by
        rw [State.setMem_chan, State.setChan_chan]
        split
        · next hk => subst hk; exact hc
        · exact .refl _
      lcd := (refl s).keeps.lcd
      memory := fun wf => by rw [State.setMem_mem, hm]; exact wf
      trace := trace_kept rfl }
  flags :=
    { (refl s).flags with
      endFlag := fun k => by
        rw [State.setMem_chan, State.setChan_chan]
        split
        · next hk => subst hk; exact he
        · exact id }

/-- An effect on the LCD controller, and perhaps on what the ports have seen. -/
theorem of_lcd {s : State} {l : Lcd} {m : Image}
    (chan : ∀ n : LcdCh, KeepsLcdChannel (s.lcd.lcden.getLsbD n) (l.lcden.getLsbD n) (s.lcdChan n) l.chan[n])
    (eof : BitsWithin l.eof s.lcd.eof) (bs : BitsWithin l.bs s.lcd.bs) (hm : m.cells = s.mem.cells) :
    SoftwareEffect s ((s.setLcd l).setMem m) where
  keeps :=
    { dma := (refl s).keeps.dma
      lcd := chan
      memory := fun wf => by rw [State.setMem_mem, hm]; exact wf
      trace := trace_kept rfl }
  flags := { (refl s).flags with eof, bs }

/-- An effect on the LCD controller's registers that leaves the channels and their enables. -/
theorem of_lcdRegisters {s : State} {l : Lcd} (lcden : l.lcden = s.lcd.lcden) (chan : l.chan = s.lcd.chan)
    (eof : BitsWithin l.eof s.lcd.eof) (bs : BitsWithin l.bs s.lcd.bs) : SoftwareEffect s (s.setLcd l) :=
  of_lcd (m := s.mem) (fun n => by rw [lcden, chan]; exact .refl _ _) eof bs rfl

/-- An effect on one LCD channel's registers. -/
theorem of_lcdChannel {s : State} {n : LcdCh} {c : LcdChannel}
    (hc : KeepsLcdChannel (s.lcd.lcden.getLsbD n) (s.lcd.lcden.getLsbD n) (s.lcdChan n) c) :
    SoftwareEffect s (s.setLcdChan n c) where
  keeps :=
    { (refl s).keeps with
      lcd := fun k => by
        rw [State.setLcdChan_lcdChan, State.setLcdChan_lcden]
        split
        · next hk => subst hk; exact hc
        · exact .refl _ _ }
  flags := { (refl s).flags with }

/-- An effect on one GPIO bank, and perhaps a notification. -/
theorem of_bank {s : State} {b : Bank} {g : GpioBank} {tr : List OutEvent} (hg : BitsWithin g.gedr (s.bank b).gedr)
    (ht : ∃ l, tr = s.trace ++ l) : SoftwareEffect s { s.setBank b g with trace := tr } where
  keeps := .of_units rfl rfl id ht
  flags :=
    { (refl s).flags with
      gedr := fun k => by
        show BitsWithin ((s.setBank b g).bank k).gedr _
        by_cases hk : k = b
        · subst hk; rw [State.setBank_bank_same]; exact hg
        · rw [State.setBank_bank_other _ _ hk]; exact .refl _ }

end SoftwareEffect

/-- `WR.DCSR` has a software effect (R151). -/
theorem dcsrWrite_effect (ch : Channel) (be : Lanes) (d : Word) (s : State) : SoftwareEffect s (dcsrWrite ch be d s) := by
  rw [dcsrWrite_eq]
  exact .of_channel (writtenChannel_keeps be d s ch) writtenChannel_endFlag (writtenImage_cells be d s ch)

/-- `WR.LCCR0`'s part for channel n has a software effect (R251). -/
theorem lccr0WriteBit_effect (n : LcdCh) (be : Lanes) (d : Word) (s : State) :
    SoftwareEffect s (lccr0WriteBit n be d s) := by
  have keeps := fun k => lccr0WriteBit_keeps n k be d s
  rw [lccr0WriteBit_eq] at keeps ⊢
  exact .of_lcd keeps (.refl _) (.refl _) (startedImage_cells n be d s)

/-- A notification that is made or not only appends to the trace. -/
theorem trace_notified (p : Prop) [Decidable p] (tr : List OutEvent) (e : OutEvent) :
    ∃ l, (if p then tr else tr ++ [e]) = tr ++ l := by
  split
  · exact trace_kept rfl
  · exact ⟨[e], rfl⟩

/-- A change of direction has a software effect (R303). -/
theorem updateDriven_effect (b : Bank) (v : Word) (s : State) :
    SoftwareEffect s (updateDriven b { s.bank b with gpdir := v } s) := by
  rw [updateDriven_eq]
  exact .of_bank (.refl _) (trace_notified _ _ _)

/-- A change of the output latch has a software effect (R305, R307). -/
theorem updateLatch_effect (b : Bank) (out : Word) (s : State) : SoftwareEffect s (updateLatch b out s) := by
  rw [updateLatch_eq]
  exact .of_bank (.refl _) (trace_notified _ _ _)

/-- A change of a bank's registers that notifies nobody has a software effect when it sets no latch (R309 to R313). -/
theorem setBank_effect {s : State} {b : Bank} {g : GpioBank} (hg : BitsWithin g.gedr (s.bank b).gedr) :
    SoftwareEffect s (s.setBank b g) := .of_bank hg (trace_kept rfl)

/-- A merge of DCMD keeps its reserved bits (R161). -/
theorem dcmd_merge_keeps (c : DmaChannel) (be : Lanes) (d : Word) :
    KeepsChannel c { c with dcmd := merge c.dcmd d (laneMask be) wDcmd } :=
  ⟨id, fun h => by rw [merge_reserved]; exact h, id⟩

/-- A merge of LDCMD keeps its reserved bits (R275). -/
theorem ldcmd_merge_keeps (e : Bool) (c : LcdChannel) (be : Lanes) (d : Word) :
    KeepsLcdChannel e e c { c with ldcmd := merge c.ldcmd d (laneMask be) wLdcmd } :=
  ⟨id, fun h => by rw [merge_reserved]; exact h, id⟩

/-! ### An access -/

/-- What an access leaves: either only the model's own fields moved, or its effect happened and the lines settled. -/
def AccessLeaves (s t : State) : Prop :=
  (∃ r n, t = { s with rdata := r, draws := n }) ∨
    ∃ u, SoftwareEffect (s.answer none) u ∧ t = intcUpdate u

theorem AccessLeaves.of_read {v : Word} {s t : State} (h : readAccess v s = .next t) : AccessLeaves s t :=
  .inl ⟨some v, s.draws, readAccess_spec h⟩

theorem AccessLeaves.of_readAudio {off : BitVec 27} {s t : State} (h : readAudio off s = .next t) : AccessLeaves s t :=
  .inl ⟨some _, s.draws + 1, readAccess_spec h⟩

/-- A write leaves what its effect leaves, when that is a software effect in every state. -/
theorem AccessLeaves.of_write {be : Lanes} {f : State → State} {s t : State} (h : writeAccess be f s = .next t)
    (hf : ∀ s, SoftwareEffect s (f s)) : AccessLeaves s t := by
  rcases writeAccess_spec h with ⟨-, rfl⟩ | ⟨-, rfl⟩
  · exact .inl ⟨none, s.draws, rfl⟩
  · exact .inr ⟨_, hf _, rfl⟩

/-- A write without an effect of its own (R132, R135, R231, R240, R242, R301). -/
theorem AccessLeaves.of_emptyWrite {be : Lanes} {s t : State} (h : writeAccess be (fun s => s) s = .next t) :
    AccessLeaves s t := .of_write h .refl

/-- What every access leaves, row by row of the opcode table. -/
theorem exec_leaves {i : Instr} {s t : State} (h : exec i s = .next t) : AccessLeaves s t := by
  cases i with
  | rdDcsr | rdDint | rdDdadr | rdDsadr | rdDtadr | rdDcmd
  | rdOsmr | rdOscr | rdOssr | rdOier
  | rdIcip | rdIcmr | rdIclr | rdIcfp | rdIcpr
  | rdLccr0 | rdLccr2 | rdLccr3 | rdLcsr | rdFdadr | rdFsadr | rdFidr | rdLdcmd
  | rdGplr0 | rdGplr1 | rdGplr2 | rdGpdr0 | rdGpdr1 | rdGpdr2 | rdGpsr0 | rdGpsr1 | rdGpsr2
  | rdGpcr0 | rdGpcr1 | rdGpcr2 | rdGrer0 | rdGrer1 | rdGrer2 | rdGfer0 | rdGfer1 | rdGfer2
  | rdGedr0 | rdGedr1 | rdGedr2 | rdUnmapped => exact .of_read h
  | rdAudio | rdAudioTop => exact .of_readAudio h
  | wrIcip | wrIcfp | wrIcpr | wrGplr0 | wrGplr1 | wrGplr2 | wrAudio | wrAudioTop | wrUnmapped =>
    exact .of_emptyWrite h
  | wrDcsr ch be d => exact .of_write h (dcsrWrite_effect ch be d)
  | wrDint => exact .of_write h fun s => .of_irqp s (w1c_setWidth_within _ _ _ _)
  | wrDdadr | wrDsadr | wrDtadr => exact .of_write h fun s => .of_channel ⟨id, id, id⟩ id rfl
  | wrDcmd _ be d => exact .of_write h fun s => .of_channel (dcmd_merge_keeps _ be d) id rfl
  | wrOsmr | wrOscr | wrOier => exact .of_write h fun s => .of_timer s (.refl _)
  | wrOssr => exact .of_write h fun s => .of_timer s (w1c_setWidth_within _ _ _ _)
  | wrIcmr | wrIclr => exact .of_write h fun s => .of_intc s _
  | wrLccr0 be d =>
    exact .of_write h fun s => (lccr0WriteBit_effect 0 be d s).trans (lccr0WriteBit_effect 1 be d _)
  | wrLccr2 | wrLccr3 =>
    exact .of_write h fun s => .of_lcdRegisters rfl rfl (.refl _) (.refl _)
  | wrLcsr =>
    exact .of_write h fun s => .of_lcdRegisters rfl rfl (lcsr_eof_within _ _ _ _)
      (lcsr_bs_within _ _ _ _)
  | wrFdadr | wrFsadr | wrFidr => exact .of_write h fun s => .of_lcdChannel ⟨id, id, id⟩
  | wrLdcmd _ be d => exact .of_write h fun s => .of_lcdChannel (ldcmd_merge_keeps _ _ be d)
  | wrGpdr0 | wrGpdr1 | wrGpdr2 => exact .of_write h fun s => updateDriven_effect _ _ s
  | wrGpsr0 | wrGpsr1 | wrGpsr2 | wrGpcr0 | wrGpcr1 | wrGpcr2 => exact .of_write h fun s => updateLatch_effect _ _ s
  | wrGrer0 | wrGrer1 | wrGrer2 | wrGfer0 | wrGfer1 | wrGfer2 =>
    exact .of_write h fun s => setBank_effect (.refl _)
  | wrGedr0 | wrGedr1 | wrGedr2 => exact .of_write h fun s => setBank_effect (w1c_within _ _ _ _)

/-- Settles O16: a read moves no flag, and the effect of a write sets none. -/
theorem accessesNeverSetALatchedFlag : Obligations.AccessesNeverSetALatchedFlag := by
  intro i s t h
  rcases exec_leaves h with ⟨r, n, rfl⟩ | ⟨u, effect, rfl⟩
  · exact ⟨fun _ => id, fun _ => id, fun _ => id, fun _ => id, fun _ => id, fun _ => id, fun _ _ => id⟩
  · obtain ⟨keeps, ossr, irqp, endFlag, eof, bs, gedr⟩ := effect
    exact ⟨ossr, irqp, endFlag, fun ch => (keeps.dma ch).busErr, eof, bs, gedr⟩

end Sys2Proof.Machine
end

section
/-! ## One channel through a tick

An event changes only its own channel and fires at most once in a tick (40_dispatcher.md R138, R139). So a channel whose
event is not due only counts down, and a channel whose event is due fires on its own registers, whatever the others do. -/

namespace Sys2Proof.Machine

/-! ### The events of a tick -/

theorem tieOrder_perm (rank : Event → Nat) (l : List Event) : (tieOrder rank l).Perm l := by
  induction l with
  | nil => exact .refl _
  | cons e rest ih => exact (insertEvent_perm rank e _).trans (ih.cons e)

theorem mem_firingOrder (s : State) (e : Event) : e ∈ firingOrder s ↔ e ∈ dueEvents (advanceTime s) :=
  (tieOrder_perm _ _).mem_iff

theorem firingOrder_nodup (s : State) : (firingOrder s).Nodup := (tieOrder_perm _ _).nodup_iff.2 (dueEvents_nodup _)

theorem dma_mem_firingOrder (s : State) (ch : Channel) :
    .dma ch ∈ firingOrder s ↔ dmaDue (advanceTime s) ch = true := by rw [mem_firingOrder, mem_dueEvents]

theorem lcd_mem_firingOrder (s : State) (n : LcdCh) :
    .lcd n ∈ firingOrder s ↔ lcdDue (advanceTime s) n = true := by rw [mem_firingOrder, mem_dueEvents]

/-- A view that only event e changes is left by a list without e. -/
theorem fireAll_without {α : Type} {v : State → α} {e : Event} (only : ∀ x s, x ≠ e → v (fireEvent s x) = v s)
    {l : List Event} (h : e ∉ l) (s : State) : v (fireAll l s) = v s :=
  fireAll_keeps v l s fun x hx s => only x s fun hxe => h (hxe ▸ hx)

/-- A view that only event e changes is, after a list that holds e once, that of firing e on a state with the same view. -/
theorem fireAll_with {α : Type} {v : State → α} {e : Event} (only : ∀ x s, x ≠ e → v (fireEvent s x) = v s)
    {l : List Event} (nodup : l.Nodup) (h : e ∈ l) (s : State) :
    ∃ u, v u = v s ∧ v (fireAll l s) = v (fireEvent u e) := by
  obtain ⟨l1, l2, -, h1, h2, split⟩ := fireAll_once nodup h s
  exact ⟨fireAll l1 s, fireAll_without only h1 s, by rw [split, fireAll_without only h2]⟩

/-! ### A DMA channel -/

theorem countDownDma_running {c : DmaChannel} (h : c.run = true) : countDownDma c = { c with drem := c.drem - 1 } := by
  rw [countDownDma, if_pos h]

@[simp] theorem countDownDma_run (c : DmaChannel) : (countDownDma c).run = c.run := by
  unfold countDownDma
  split <;> rfl

@[simp] theorem countDownDma_dcmd (c : DmaChannel) : (countDownDma c).dcmd = c.dcmd := by
  unfold countDownDma
  split <;> rfl

@[simp] theorem countDownDma_busErr (c : DmaChannel) : (countDownDma c).busErr = c.busErr := by
  unfold countDownDma
  split <;> rfl

/-- A completion is due in this tick when at most one tick was left (R138). -/
theorem dmaDue_advanceTime (s : State) (ch : Channel) :
    dmaDue (advanceTime s) ch = ((s.chan ch).run && decide ((s.chan ch).drem ≤ 1)) := by
  rw [dmaDue, advanceTime_chan, countDownDma_run]
  cases run : (s.chan ch).run
  · rfl
  · rw [countDownDma_running run, Bool.true_and, Bool.true_and, Bool.eq_iff_iff, beq_iff_eq, decide_eq_true_iff,
      Nat.sub_eq_zero_iff_le]

/-- What of the state belongs to DMA channel ch: its registers and its raw-pending bit. -/
def dmaView (ch : Channel) (s : State) : DmaChannel × Bool := (s.chan ch, s.dma.irqp.getLsbD ch)

theorem dmaView_only (ch : Channel) (e : Event) (s : State) (h : e ≠ .dma ch) :
    dmaView ch (fireEvent s e) = dmaView ch s := by
  rw [dmaView, fireEvent_chan s h, fireEvent_irqp s h, dmaView]

theorem tickStep_dmaView (ch : Channel) (s : State) :
    dmaView ch (tickStep s) = dmaView ch (fireAll (firingOrder s) (advanceTime s)) := rfl

/-- A channel whose completion is not due only counts down (R138). -/
theorem tickStep_dmaView_of_not_due {s : State} {ch : Channel} (h : dmaDue (advanceTime s) ch = false) :
    dmaView ch (tickStep s) = (countDownDma (s.chan ch), s.dma.irqp.getLsbD ch) := by
  have notFired : .dma ch ∉ firingOrder s := by rw [dma_mem_firingOrder, h]; decide
  rw [tickStep_dmaView, fireAll_without (dmaView_only ch) notFired, dmaView, advanceTime_chan, advanceTime_irqp]

/-- A channel whose completion is due completes on its own registers (R138, R165). -/
theorem tickStep_dmaView_of_due {s : State} {ch : Channel} (h : dmaDue (advanceTime s) ch = true) :
    ∃ m, dmaView ch (tickStep s) =
      (completedChannel m (countDownDma (s.chan ch)),
        dcmdEndIrqEn (s.chan ch).dcmd || s.dma.irqp.getLsbD ch) := by
  obtain ⟨u, sameView, fired⟩ :=
    fireAll_with (dmaView_only ch) (firingOrder_nodup s) ((dma_mem_firingOrder s ch).2 h) (advanceTime s)
  rw [dmaView, dmaView, Prod.mk.injEq, advanceTime_chan, advanceTime_irqp] at sameView
  obtain ⟨sameChan, sameBit⟩ := sameView
  have run : (u.chan ch).run = true := by
    rw [dmaDue_advanceTime, Bool.and_eq_true] at h
    rw [sameChan, countDownDma_run]
    exact h.1
  have sameCmd : (u.chan ch).dcmd = (s.chan ch).dcmd := by rw [sameChan, countDownDma_dcmd]
  refine ⟨copiedImage (u.chan ch) u.mem, ?_⟩
  rw [tickStep_dmaView, fired, fireEvent, dmaView, dmaFire_chan_same run, dmaFire_irqp run, sameCmd, ← sameBit, ← sameChan]
  cases dcmdEndIrqEn (s.chan ch).dcmd <;> simp [setBit_bit]

theorem completedChannel_endFlag (m : Image) (c : DmaChannel) : (completedChannel m c).endFlag = true := by
  unfold completedChannel
  split <;> rfl

theorem completedChannel_busErr (m : Image) (c : DmaChannel) : (completedChannel m c).busErr = c.busErr := by
  unfold completedChannel
  split <;> rfl

/-- A completion clears RUN exactly when STOP was 1 (R165). -/
theorem completedChannel_run {c : DmaChannel} (m : Image) (h : c.run = true) :
    (completedChannel m c).run = !dcmdStop c.dcmd := by
  unfold completedChannel
  cases dcmdStop c.dcmd
  · exact h
  · rfl

/-- Before its countdown is used up a running channel only counts down (10_state.md R37). -/
theorem ticks_dmaView {s : State} {ch : Channel} (run : (s.chan ch).run = true) {k : Nat} (hk : k < (s.chan ch).drem) :
    dmaView ch (ticks k s) = ({ s.chan ch with drem := (s.chan ch).drem - k }, s.dma.irqp.getLsbD ch) := by
  induction k with
  | zero => rfl
  | succ k ih =>
    have before := ih (by omega)
    rw [dmaView, Prod.mk.injEq] at before
    obtain ⟨chan, bit⟩ := before
    have notDue : dmaDue (advanceTime (ticks k s)) ch = false := by
      rw [dmaDue_advanceTime, chan, run, Bool.true_and, decide_eq_false_iff_not]
      show ¬(s.chan ch).drem - k ≤ 1
      omega
    rw [ticks, tickStep_dmaView_of_not_due notDue, chan, bit, countDownDma_running (by exact run)]
    rfl

/-- Settles O31: the ticks before the countdown's last are `ticks_dmaView`; in the last one the completion is due. -/
theorem dmaCompletionFiresExactlyOnTime : Obligations.DmaCompletionFiresExactlyOnTime := by
  intro s ch run live
  have counts := fun k hk => ticks_dmaView (k := k) run hk
  refine ⟨fun k hk => congrArg Prod.fst (counts k hk), ?_⟩
  obtain ⟨d, hd⟩ : ∃ d, (s.chan ch).drem = d + 1 := ⟨_, (Nat.sub_add_cancel live).symm⟩
  have last := counts d (by omega)
  rw [dmaView, Prod.mk.injEq] at last
  obtain ⟨chan, -⟩ := last
  have due : dmaDue (advanceTime (ticks d s)) ch = true := by
    rw [dmaDue_advanceTime, chan, run, Bool.true_and, decide_eq_true_iff]
    show (s.chan ch).drem - d ≤ 1
    omega
  obtain ⟨m, after⟩ := tickStep_dmaView_of_due due
  rw [chan, dmaView, Prod.mk.injEq] at after
  obtain ⟨completed, bit⟩ := after
  rw [hd, ticks, completed, bit]
  refine ⟨completedChannel_endFlag _ _, ?_, fun endIrqEn => ?_⟩
  · rw [completedChannel_run _ (by rw [countDownDma_run]; exact run), countDownDma_dcmd]
    rfl
  · rw [Bool.or_eq_true]
    exact .inl endIrqEn

/-! ### An LCD channel -/

theorem countDownLcd_enabled (c : LcdChannel) : countDownLcd true c = { c with lrem := c.lrem - 1 } := rfl

@[simp] theorem countDownLcd_ldcmd (e : Bool) (c : LcdChannel) : (countDownLcd e c).ldcmd = c.ldcmd := by
  cases e <;> rfl

@[simp] theorem countDownLcd_fb (e : Bool) (c : LcdChannel) : (countDownLcd e c).fb = c.fb := by
  cases e <;> rfl

/-- An end of frame is due in this tick when at most one tick was left (R138). -/
theorem lcdDue_advanceTime (s : State) (n : LcdCh) :
    lcdDue (advanceTime s) n = (s.lcd.lcden.getLsbD n && decide ((s.lcdChan n).lrem ≤ 1)) := by
  rw [lcdDue, advanceTime_lcdChan, advanceTime_lcden]
  cases s.lcd.lcden.getLsbD n
  · rfl
  · rw [countDownLcd_enabled, Bool.true_and, Bool.true_and, Bool.eq_iff_iff, beq_iff_eq, decide_eq_true_iff,
      Nat.sub_eq_zero_iff_le]

/-- What of the state belongs to LCD channel n, and the settings its period is taken from: no event changes these. -/
structure LcdView where
  chan : LcdChannel
  enabled : Bool
  eof : Bool
  lpp : BitVec 10
  pcd : BitVec 8

/-- The view of LCD channel n in a state. -/
def lcdView (n : LcdCh) (s : State) : LcdView :=
  ⟨s.lcdChan n, s.lcd.lcden.getLsbD n, s.lcd.eof.getLsbD n, s.lcd.lpp, s.lcd.pcd⟩

theorem lcdView_only (n : LcdCh) (e : Event) (s : State) (h : e ≠ .lcd n) :
    lcdView n (fireEvent s e) = lcdView n s := by
  obtain ⟨enabled, eof, -⟩ := fireEvent_lcdBits s h
  obtain ⟨lpp, pcd⟩ := fireEvent_lpp_pcd s e
  rw [lcdView, fireEvent_lcdChan s h, enabled, eof, lpp, pcd, lcdView]

theorem tickStep_lcdView (n : LcdCh) (s : State) :
    lcdView n (tickStep s) = lcdView n (fireAll (firingOrder s) (advanceTime s)) := rfl

theorem advanceTime_lcdView (n : LcdCh) (s : State) :
    lcdView n (advanceTime s) =
      { lcdView n s with chan := countDownLcd (s.lcd.lcden.getLsbD n) (s.lcdChan n) } := by
  rw [lcdView, advanceTime_lcdChan]
  rfl

/-- A channel whose end of frame is not due only counts down (R138). -/
theorem tickStep_lcdView_of_not_due {s : State} {n : LcdCh} (h : lcdDue (advanceTime s) n = false) :
    lcdView n (tickStep s) = { lcdView n s with chan := countDownLcd (s.lcd.lcden.getLsbD n) (s.lcdChan n) } := by
  have notFired : .lcd n ∉ firingOrder s := by rw [lcd_mem_firingOrder, h]; decide
  rw [tickStep_lcdView, fireAll_without (lcdView_only n) notFired, advanceTime_lcdView]

/-- A channel whose end of frame is due ends its frame on its own registers (R138, R264). -/
theorem tickStep_lcdView_of_due {s : State} {n : LcdCh} (h : lcdDue (advanceTime s) n = true) :
    ∃ u : State, u.lcdChan n = countDownLcd true (s.lcdChan n) ∧ u.lcd.lpp = s.lcd.lpp ∧ u.lcd.pcd = s.lcd.pcd ∧
      lcdView n (tickStep s) =
        ⟨endedChannel u n, !ldcmdStop (s.lcdChan n).ldcmd, true, s.lcd.lpp, s.lcd.pcd⟩ := by
  obtain ⟨u, sameView, fired⟩ :=
    fireAll_with (lcdView_only n) (firingOrder_nodup s) ((lcd_mem_firingOrder s n).2 h) (advanceTime s)
  rw [lcdDue_advanceTime, Bool.and_eq_true] at h
  obtain ⟨enabled, -⟩ := h
  rw [advanceTime_lcdView, enabled, lcdView, lcdView, LcdView.mk.injEq] at sameView
  obtain ⟨sameChan, sameEnable, -, lpp, pcd⟩ := sameView
  have uEnabled : u.lcd.lcden.getLsbD n = true := sameEnable.trans enabled
  have sameCmd : (u.lcdChan n).ldcmd = (s.lcdChan n).ldcmd := by rw [sameChan, countDownLcd_ldcmd]
  refine ⟨u, sameChan, lpp, pcd, ?_⟩
  rw [tickStep_lcdView, fired, fireEvent, lcdView, lcdFire_lcdChan_same uEnabled, lcdFire_lcden uEnabled,
    lcdFire_eof uEnabled, lcdFire_lpp, lcdFire_pcd, lpp, pcd, sameCmd, LcdView.mk.injEq]
  refine ⟨rfl, ?_, by simp [setBit_bit, Nat.le_of_lt_succ n.isLt], rfl, rfl⟩
  cases ldcmdStop (s.lcdChan n).ldcmd
  · exact uEnabled
  · simp [clearBit_bit]

/-- Before its countdown is used up an enabled channel only counts down (10_state.md R51). -/
theorem ticks_lcdView {s : State} {n : LcdCh} (enabled : s.lcd.lcden.getLsbD n = true) {k : Nat}
    (hk : k < (s.lcdChan n).lrem) :
    lcdView n (ticks k s) = { lcdView n s with chan := { s.lcdChan n with lrem := (s.lcdChan n).lrem - k } } := by
  induction k with
  | zero => rfl
  | succ k ih =>
    have before := ih (by omega)
    have chan : (ticks k s).lcdChan n = _ := congrArg LcdView.chan before
    have stillEnabled : (ticks k s).lcd.lcden.getLsbD n = s.lcd.lcden.getLsbD n := congrArg LcdView.enabled before
    have notDue : lcdDue (advanceTime (ticks k s)) n = false := by
      rw [lcdDue_advanceTime, stillEnabled, enabled, chan, Bool.true_and, decide_eq_false_iff_not]
      show ¬(s.lcdChan n).lrem - k ≤ 1
      omega
    rw [ticks, tickStep_lcdView_of_not_due notDue, before, chan, stillEnabled, enabled, countDownLcd_enabled]
    rfl

/-- An end of frame that does not stop re-arms for one period of the settings as they are (R262, R264, R278). -/
theorem endedChannel_lrem {s : State} {n : LcdCh} (h : ldcmdStop (s.lcdChan n).ldcmd = false) :
    (endedChannel s n).lrem = Config.lcdPeriod s.lcd.lpp s.lcd.pcd := by
  rw [endedChannel, h]
  rfl

/-- Settles O49: the ticks before the countdown's last are `ticks_lcdView`; in the last one the end of frame is due. -/
theorem lcdEndOfFrameFiresExactlyOnTime : Obligations.LcdEndOfFrameFiresExactlyOnTime := by
  intro s n enabled live
  have counts := fun k hk => ticks_lcdView (k := k) enabled hk
  refine ⟨fun k hk => ⟨congrArg LcdView.chan (counts k hk), (congrArg LcdView.enabled (counts k hk)).trans enabled,
    congrArg LcdView.eof (counts k hk)⟩, ?_⟩
  obtain ⟨d, hd⟩ : ∃ d, (s.lcdChan n).lrem = d + 1 := ⟨_, (Nat.sub_add_cancel live).symm⟩
  have last := counts d (by omega)
  rw [lcdView, lcdView, LcdView.mk.injEq] at last
  obtain ⟨chan, stillEnabled, -, lpp, pcd⟩ := last
  have due : lcdDue (advanceTime (ticks d s)) n = true := by
    rw [lcdDue_advanceTime, stillEnabled, enabled, chan, Bool.true_and, decide_eq_true_iff]
    show (s.lcdChan n).lrem - d ≤ 1
    omega
  obtain ⟨u, uChan, uLpp, uPcd, after⟩ := tickStep_lcdView_of_due due
  rw [lcdView, LcdView.mk.injEq, chan] at after
  obtain ⟨ended, enable, eof, -, -⟩ := after
  rw [hd, ticks, ended, enable, eof]
  refine ⟨rfl, rfl, fun noStop => ?_⟩
  have uNoStop : ldcmdStop (u.lcdChan n).ldcmd = false := by rw [uChan, chan, countDownLcd_ldcmd]; exact noStop
  rw [endedChannel_lrem uNoStop, uLpp, uPcd, lpp, pcd]

end Sys2Proof.Machine
end

section
/-! ## What every step keeps

Each stimulus keeps what each channel must keep, the plain memory's canonical form and the output trace (`Keeps`), and
leaves ICPR and the lines settled: this is the step of the invariant of 10_state.md R65. -/

namespace Sys2Proof.Machine

/-- R65 (c) and (d): what every `IntcUpdate` establishes. -/
def LinesSettled (s : State) : Prop := SourcesLatched s ∧ LinesDriven s

theorem intcUpdate_linesSettled (s : State) : LinesSettled (intcUpdate s) :=
  ⟨intcUpdate_latched s, intcUpdate_driven s⟩

/-- What is kept, with settled lines, is the invariant. -/
theorem Inv.of_keeps {s t : State} (h : Inv s) (keeps : Keeps s t) (lines : LinesSettled t) : Inv t where
  running := fun ch => (keeps.dma ch).live (h.running ch)
  enabled := fun n => (keeps.lcd n).live (h.enabled n)
  latched := lines.1
  driven := lines.2
  reserved := ⟨fun ch => (keeps.dma ch).reserved (h.reserved.1 ch), fun n => (keeps.lcd n).reserved (h.reserved.2 n)⟩
  frames := fun n => (keeps.lcd n).sized (h.frames n)
  memory := keeps.memory h.memory

/-! ### A DMA channel through a tick -/

/-- A channel that still runs after its completion has a live countdown (R164, R165). -/
theorem completedChannel_live {m : Image} {c : DmaChannel} (running : (completedChannel m c).run = true) :
    1 ≤ (completedChannel m c).drem := by
  unfold completedChannel at running ⊢
  cases stop : dcmdStop c.dcmd
  · exact loadedChannel_live m _
  · simp [stop] at running

theorem completedChannel_reserved {c : DmaChannel} (m : Image) (h : c.dcmd &&& ~~~wDcmd = 0) :
    (completedChannel m c).dcmd &&& ~~~wDcmd = 0 := by
  unfold completedChannel
  split
  · exact h
  · exact loadedChannel_reserved m _

/-- A tick keeps every DMA channel: what is not due keeps a live countdown, what is due stops or loads one. -/
theorem tickStep_keepsChannel (s : State) (ch : Channel) : KeepsChannel (s.chan ch) ((tickStep s).chan ch) := by
  cases due : dmaDue (advanceTime s) ch
  · have chan : (tickStep s).chan ch = countDownDma (s.chan ch) := congrArg Prod.fst (tickStep_dmaView_of_not_due due)
    rw [chan]
    refine ⟨fun _ running => ?_, fun zero => by rw [countDownDma_dcmd]; exact zero,
      fun raised => by rw [← countDownDma_busErr]; exact raised⟩
    rw [countDownDma_run] at running
    rw [dmaDue_advanceTime, running, Bool.true_and, decide_eq_false_iff_not] at due
    rw [countDownDma_running running]
    show 1 ≤ (s.chan ch).drem - 1
    omega
  · obtain ⟨m, after⟩ := tickStep_dmaView_of_due due
    have chan : (tickStep s).chan ch = completedChannel m (countDownDma (s.chan ch)) := congrArg Prod.fst after
    rw [chan]
    exact ⟨fun _ => completedChannel_live,
      fun zero => completedChannel_reserved m (by rw [countDownDma_dcmd]; exact zero),
      fun raised => by rw [← countDownDma_busErr, ← completedChannel_busErr m]; exact raised⟩

/-! ### An LCD channel through a tick -/

/-- A streaming leaves as many pixels as its lines hold, or the framebuffer as it was (R265, R267). -/
theorem streamedFrame_sized (m : Image) (pal : Vector Word 256) (lpp : BitVec 10) {c : LcdChannel}
    (h : c.fb.pix.length = c.fb.lines * c.fb.llen) :
    (streamedFrame m pal lpp c).pix.length = (streamedFrame m pal lpp c).lines * (streamedFrame m pal lpp c).llen := by
  match pf : (ldcmdPf c.ldcmd).toNat with
  | 0 => simp [streamedFrame, streamLength, pf]
  | 1 =>
    have twoEach := (halves_getElem (frameLines lpp * (ldcmdLlen c.ldcmd).toNat) _ (runBytes_length _ c.fsadr m)).1
    simp [streamedFrame, streamLength, pf, twoEach]
  | _ + 2 => simpa [streamedFrame, pf] using h

theorem shownChannel_ldcmd (s : State) (n : LcdCh) : (shownChannel s n).ldcmd = (s.lcdChan n).ldcmd := by
  unfold shownChannel
  split <;> rfl

theorem shownChannel_sized {s : State} {n : LcdCh}
    (h : (s.lcdChan n).fb.pix.length = (s.lcdChan n).fb.lines * (s.lcdChan n).fb.llen) :
    (shownChannel s n).fb.pix.length = (shownChannel s n).fb.lines * (shownChannel s n).fb.llen := by
  unfold shownChannel
  split
  · exact h
  · exact streamedFrame_sized _ _ _ h

theorem endedChannel_fb (s : State) (n : LcdCh) : (endedChannel s n).fb = (shownChannel s n).fb := by
  unfold endedChannel
  split <;> rfl

theorem endedChannel_reserved {s : State} {n : LcdCh} (h : (s.lcdChan n).ldcmd &&& ~~~wLdcmd = 0) :
    (endedChannel s n).ldcmd &&& ~~~wLdcmd = 0 := by
  unfold endedChannel
  split
  · rw [shownChannel_ldcmd]; exact h
  · exact loadedLcdChannel_reserved _ _ _ _

/-- A tick keeps every LCD channel: what is not due keeps a live countdown, what is due stops or loads one. -/
theorem tickStep_keepsLcdChannel (s : State) (n : LcdCh) :
    KeepsLcdChannel (s.lcd.lcden.getLsbD n) ((tickStep s).lcd.lcden.getLsbD n) (s.lcdChan n)
      ((tickStep s).lcdChan n) := by
  cases due : lcdDue (advanceTime s) n
  · have after := tickStep_lcdView_of_not_due due
    have chan : (tickStep s).lcdChan n = countDownLcd (s.lcd.lcden.getLsbD n) (s.lcdChan n) :=
      congrArg LcdView.chan after
    have enable : (tickStep s).lcd.lcden.getLsbD n = s.lcd.lcden.getLsbD n := congrArg LcdView.enabled after
    rw [chan, enable]
    refine ⟨fun _ enabled => ?_, fun zero => by rw [countDownLcd_ldcmd]; exact zero,
      fun size => by rw [countDownLcd_fb]; exact size⟩
    rw [lcdDue_advanceTime, enabled, Bool.true_and, decide_eq_false_iff_not] at due
    rw [enabled, countDownLcd_enabled]
    show 1 ≤ (s.lcdChan n).lrem - 1
    omega
  · obtain ⟨u, uChan, -, -, after⟩ := tickStep_lcdView_of_due due
    have chan : (tickStep s).lcdChan n = endedChannel u n := congrArg LcdView.chan after
    have enable : (tickStep s).lcd.lcden.getLsbD n = !ldcmdStop (s.lcdChan n).ldcmd := congrArg LcdView.enabled after
    have uCmd : (u.lcdChan n).ldcmd = (s.lcdChan n).ldcmd := by rw [uChan, countDownLcd_ldcmd]
    have uFb : (u.lcdChan n).fb = (s.lcdChan n).fb := by rw [uChan, countDownLcd_fb]
    rw [chan, enable]
    refine ⟨fun _ goesOn => ?_, fun zero => endedChannel_reserved (by rw [uCmd]; exact zero),
      fun size => by rw [endedChannel_fb]; exact shownChannel_sized (by rw [uFb]; exact size)⟩
    rw [Bool.not_eq_true', ← uCmd] at goesOn
    rw [endedChannel_lrem goesOn]
    exact Nat.le_add_left 1 _

/-! ### Memory and trace through a tick -/

/-- A completion keeps the canonical form of the plain memory (R166). -/
theorem completedImage_wf {m : Image} (c : DmaChannel) (h : Memory.wf m.cells = true) :
    Memory.wf (completedImage c m).cells = true := by
  have copied : Memory.wf (copiedImage c m).cells = true := wf_copyBytes _ _ _ _ _ h
  unfold completedImage
  split
  · exact copied
  · rw [afterDescriptor, runImage_cells]; exact copied

/-- An end of frame writes no plain memory (R264). -/
theorem endedImage_cells (s : State) (n : LcdCh) : (endedImage s n).cells = s.mem.cells := by
  unfold endedImage shownImage
  split
  · exact runImage_cells _ _ _
  · rw [afterDescriptor, runImage_cells, runImage_cells]

theorem fireEvent_wf (e : Event) (s : State) (h : Memory.wf s.mem.cells = true) :
    Memory.wf (fireEvent s e).mem.cells = true := by
  cases e with
  | tmr i => exact h
  | dma ch =>
    rw [fireEvent]
    cases run : (s.chan ch).run
    · rw [dmaFire_idle run]; exact h
    · rw [dmaFire_mem run]; exact completedImage_wf _ h
  | lcd n =>
    rw [fireEvent]
    cases enabled : s.lcd.lcden.getLsbD n
    · rw [lcdFire_idle enabled]; exact h
    · rw [lcdFire_mem enabled, endedImage_cells]; exact h

theorem fireEvent_trace (e : Event) (s : State) : ∃ l, (fireEvent s e).trace = s.trace ++ l := by
  cases e with
  | tmr i => exact trace_kept rfl
  | dma ch => exact trace_kept (dmaFire_trace ch s)
  | lcd n =>
    rw [fireEvent]
    cases enabled : s.lcd.lcden.getLsbD n
    · rw [lcdFire_idle enabled]; exact trace_kept rfl
    · exact ⟨_, lcdFire_trace enabled⟩

/-- The events of a tick only append to the trace (R62). -/
theorem fireAll_trace (l : List Event) (s : State) : ∃ r, (fireAll l s).trace = s.trace ++ r := by
  refine fireAll_invariant (fun u => ∃ r, u.trace = s.trace ++ r) (fun e u appended => ?_) l s (trace_kept rfl)
  obtain ⟨r, hr⟩ := appended
  obtain ⟨r', hr'⟩ := fireEvent_trace e u
  exact ⟨r ++ r', by rw [hr', hr, List.append_assoc]⟩

theorem tickStep_keeps (s : State) : Keeps s (tickStep s) where
  dma := tickStep_keepsChannel s
  lcd := tickStep_keepsLcdChannel s
  memory := fireAll_invariant (fun u => Memory.wf u.mem.cells = true) fireEvent_wf (firingOrder s) (advanceTime s)
  trace := fireAll_trace (firingOrder s) (advanceTime s)

/-! ### The other stimuli -/

/-- A reset channel is idle, with no reserved bit and no flag (R64). -/
theorem KeepsChannel.of_reset (c : DmaChannel) : KeepsChannel c DmaChannel.reset :=
  ⟨fun _ running => Bool.noConfusion running, fun _ => by decide, fun raised => Bool.noConfusion raised⟩

/-- A reset LCD channel is disabled, with no reserved bit and an empty framebuffer (R64). -/
theorem KeepsLcdChannel.of_reset (e : Bool) (c : LcdChannel) : KeepsLcdChannel e false c LcdChannel.reset :=
  ⟨fun _ enabled => Bool.noConfusion enabled, fun _ => by decide, fun _ => rfl⟩

theorem Lcd.reset_lcden (draw : Nat) (n : LcdCh) : (Lcd.reset draw).lcden.getLsbD n = false := by simp [Lcd.reset]

theorem resetStep_keeps (s : State) : Keeps s (resetStep s) where
  dma := fun ch => by rw [resetStep_chan]; exact .of_reset _
  lcd := fun n => by rw [resetStep_lcdChan, resetStep_lcd, Lcd.reset_lcden]; exact .of_reset _ _
  memory := id
  trace := trace_kept rfl

/-- A pin notification that is not refused is a pin step (R315). -/
theorem pinOrRefuse_spec {b p level : Nat} {s t : State} (h : pinOrRefuse b p level s = .next t) :
    ∃ (bank : Bank) (high : Bool), t = pinStep bank p high s := by
  unfold pinOrRefuse at h
  split at h
  · split at h
    · exact ⟨_, _, (Host.Outcome.next.inj h).symm⟩
    · cases h
  · cases h

theorem pinStep_keeps (b : Bank) (p : Nat) (level : Bool) (s : State) : Keeps s (pinStep b p level s) :=
  .of_units rfl rfl id (trace_kept rfl)

/-! ### Every step -/

/-- What every step does: it keeps what must be kept, and settled lines stay settled. -/
structure StepKeeps (s t : State) : Prop where
  keeps : Keeps s t
  lines : LinesSettled s → LinesSettled t

theorem AccessLeaves.stepKeeps {s t : State} (h : AccessLeaves s t) : StepKeeps s t := by
  rcases h with ⟨r, n, rfl⟩ | ⟨u, effect, rfl⟩
  · exact ⟨.of_units rfl rfl id (trace_kept rfl), id⟩
  · obtain ⟨dma, lcd, memory, trace⟩ := effect.keeps
    exact ⟨⟨dma, lcd, memory, trace⟩, fun _ => intcUpdate_linesSettled u⟩

/-- What the environment applies keeps what every step keeps (00_scope.md R12). -/
theorem applyStimulus_keeps {x : Stimulus} {s t : State} (h : applyStimulus x s = .next t) : StepKeeps s t := by
  cases x with
  | access a => exact (exec_leaves h).stepKeeps
  | tick =>
    obtain rfl : tickStep s = t := Host.Outcome.next.inj h
    exact ⟨tickStep_keeps s, fun _ => intcUpdate_linesSettled _⟩
  | pin b p level =>
    obtain ⟨bank, high, rfl⟩ := pinOrRefuse_spec h
    exact ⟨pinStep_keeps bank p high s, fun _ => intcUpdate_linesSettled _⟩
  | reset =>
    obtain rfl : resetStep s = t := Host.Outcome.next.inj h
    exact ⟨resetStep_keeps s, fun _ => intcUpdate_linesSettled _⟩
  | mem addr bytes =>
    obtain rfl : envMemStep addr bytes s = t := Host.Outcome.next.inj h
    exact ⟨.of_units rfl rfl (Memory.wf_putBytes addr bytes) (trace_kept rfl), id⟩
  | ports ranges answers =>
    obtain rfl : envPortsStep ranges answers s = t := Host.Outcome.next.inj h
    exact ⟨.of_units rfl rfl id (trace_kept rfl), id⟩

theorem step_keeps {s t : State} (h : step s = .next t) : StepKeeps s t := by
  cases waiting : s.inbox with
  | nil =>
    rw [step_of_inbox_nil waiting] at h
    obtain rfl : s = t := Host.Outcome.next.inj h
    exact ⟨.of_units rfl rfl id (trace_kept rfl), id⟩
  | cons x rest =>
    rw [step_of_inbox_cons waiting] at h
    obtain ⟨keeps, lines⟩ := applyStimulus_keeps h
    have taken : Keeps s { s with inbox := rest } := .of_units rfl rfl id (trace_kept rfl)
    exact ⟨taken.trans keeps, lines⟩

/-- Settles O17: both are among what every step keeps. -/
theorem noStepErasesTheTraceOrRaisesBusErr : Obligations.NoStepErasesTheTraceOrRaisesBusErr := by
  intro s t h
  obtain ⟨dma, -, -, trace⟩ := (step_keeps h).keeps
  exact ⟨trace, fun ch => (dma ch).busErr⟩

/-- Settles O13: a step keeps the clauses on the channels and on memory, and the lines stay settled. -/
theorem everyStepKeepsTheInvariant : Obligations.EveryStepKeepsTheInvariant := by
  intro s t h stepped
  obtain ⟨keeps, lines⟩ := step_keeps stepped
  exact h.of_keeps keeps (lines ⟨h.latched, h.driven⟩)

/-- Settles O12: every channel is idle, no source is high and nothing has been written. -/
theorem resetMeetsTheInvariant : Obligations.ResetMeetsTheInvariant where
  running := fun ch running => by rw [State.reset_chan] at running; cases running
  enabled := fun n enabled => absurd enabled (by rw [State.reset, Lcd.reset_lcden]; decide)
  latched := (sources_reset rfl rfl rfl rfl).symm
  driven := by unfold LinesDriven; decide
  reserved := ⟨fun ch => by rw [State.reset_chan]; decide, fun n => by rw [State.reset_lcdChan]; decide⟩
  frames := fun n => by rw [State.reset_lcdChan]; rfl
  memory := State.reset_mem_wf

end Sys2Proof.Machine
end

section
/-! ## The accessors of memory and the runs of reads

What one access does at a port and in plain memory (20_memory.md R71, R79), and what a run of reads at ascending addresses
gives (R73, R88). -/

namespace Sys2Proof.Machine

/-- A port is where the environment has put one (20_memory.md R71). -/
theorem Image.isPort_iff (m : Image) (a : Word) :
    m.isPort a = true ↔ ∃ r ∈ m.ports, r.first ≤ a ∧ a ≤ r.last := by
  simp only [Image.isPort, List.any_eq_true, Bool.and_eq_true, decide_eq_true_eq]

/-- A write in plain memory moves the cells only: the ports, their script and their record stay. -/
theorem writeByte_plain_frame {m : Image} {a : Word} (v : Byte) (plain : m.isPort a = false) :
    writeByte m a v = { m with cells := (writeByte m a v).cells } := by
  simp [writeByte, plain]

/-- Settles O59: single accesses by the kind of the address, runs by induction on their length (`run_plain`,
`run_ports`). -/
theorem memoryAccessorsAndRuns : Obligations.MemoryAccessorsAndRuns := by
  intro m a v
  refine ⟨m.isPort_iff a, fun plain => ?_, fun port => ?_, fun n => ⟨run_plain, run_ports⟩⟩
  · have written (k : Word) : plainByte (writeByte m a v) k = if k = a then v else plainByte m k := by
      simp only [plainByte_writeByte, plain, and_true]
    exact ⟨readByte_plain plain, afterRead_plain plain, written, writeByte_plain_frame v plain⟩
  · exact ⟨fun w rest script => readByte_port port script, afterRead_port port, writeByte_port v port⟩

end Sys2Proof.Machine
end

section
/-! ## The encoding of accesses

The rows of the register map are apart from one another, so a command word decodes to whichever row it hits
(30_encoding.md R105); a row gives back the word it took, and the words that no row takes are those of the unassigned
offsets. Both round trips, the totality of the decoder and the map's offsets rest on that. -/

namespace Sys2Proof

open Machine

/-! ### The rows are disjoint -/

theorem Row.hits_iff {r : Row} {c : Cmd} : r.hits c = true ↔ c &&& r.mask = r.value := beq_iff_eq

/-- Two rows that ask for different values at a bit both of them look at. -/
def Row.apart (r q : Row) : Bool := (r.mask &&& q.mask) &&& (r.value ^^^ q.value) != 0

/-- A word that hits two rows has the values of both under the masks they share. -/
theorem Row.not_both_of_apart {r q : Row} (h : r.apart q = true) (c : Cmd) : ¬(r.hits c = true ∧ q.hits c = true) := by
  rintro ⟨hitr, hitq⟩
  refine absurd ?_ (bne_iff_ne.mp h)
  rw [← Row.hits_iff.mp hitr, ← Row.hits_iff.mp hitq]
  refine BitVec.eq_of_getLsbD_eq (y := 0#28) fun k _ => ?_
  simp only [BitVec.getLsbD_and, BitVec.getLsbD_xor, BitVec.getLsbD_zero]
  cases c.getLsbD k <;> cases r.mask.getLsbD k <;> cases q.mask.getLsbD k <;> rfl

theorem namedRows_apart : namedRows.Pairwise fun r q => r.apart q = true := by decide +kernel

/-- Settles O4: any two rows of the table are apart. -/
theorem registerRowsAreDisjoint : Obligations.RegisterRowsAreDisjoint :=
  namedRows_apart.imp Row.not_both_of_apart

theorem row_unique {r q : Row} (hr : r ∈ namedRows) (hq : q ∈ namedRows) {c : Cmd} (hitr : r.hits c = true)
    (hitq : q.hits c = true) : r = q := by
  by_contra ne
  have symm : Std.Symm fun r q : Row => ∀ c : Cmd, ¬(r.hits c = true ∧ q.hits c = true) :=
    ⟨fun _ _ disjoint c both => disjoint c both.symm⟩
  exact registerRowsAreDisjoint.forall hr hq ne c ⟨hitr, hitq⟩

/-! ### What decoding can answer -/

/-- A command word decodes to a row it hits, or it hits none and is UNMAPPED (R105). -/
theorem decode_cases (a : Access) :
    (∃ r ∈ namedRows, r.hits a.cmd = true ∧ decode a = r.build a.cmd a.be a.data) ∨
    ((∀ r ∈ namedRows, r.hits a.cmd = false) ∧ decode a =
      if cmdIsWrite a.cmd then .wrUnmapped (cmdWordOffset a.cmd) a.be a.data
      else .rdUnmapped (cmdWordOffset a.cmd) a.be) := by
  cases found : namedRows.find? (fun r => r.hits a.cmd) with
  | some r =>
    have hit : r.hits a.cmd = true := List.find?_some (p := fun r : Row => r.hits a.cmd) found
    exact .inl ⟨r, List.mem_of_find?_eq_some found, hit, by simp only [decode, found]⟩
  | none => exact .inr ⟨by simpa using found, by simp only [decode, found]⟩

theorem decode_of_find {c : Cmd} {be : Lanes} {d : Word} {r : Row} {i : Instr}
    (row : namedRows.find? (fun r => r.hits c) = some r) (builds : r.build c be d = i) : decode ⟨c, be, d⟩ = i := by
  simp only [decode, row, builds]

/-- The rows being disjoint, whichever row a command word hits is the one it decodes to. -/
theorem decode_of_row {r : Row} (mem : r ∈ namedRows) {c : Cmd} (hit : r.hits c = true) (be : Lanes) (d : Word) :
    decode ⟨c, be, d⟩ = r.build c be d := by
  obtain ⟨q, hq, hitq, eq⟩ | ⟨none, -⟩ := decode_cases ⟨c, be, d⟩
  · rw [eq, row_unique hq mem hitq hit]
  · exact absurd hit (by simp [none r mem])

/-! ### The parts of a command word -/

/-- The bits of CMD that an index field of w bits at bit lo takes (R114). -/
def fieldMask (lo w : Nat) : Cmd := (BitVec.allOnes w).setWidth 28 <<< lo

/-- Placing the field that was cut out of a command word puts those bits back. -/
theorem withIndex_field (value c : Cmd) (lo w : Nat) :
    withIndex value lo (c.extractLsb' lo w).toNat = value ||| (c &&& fieldMask lo w) := by
  have field : BitVec.ofNat 28 (c.extractLsb' lo w).toNat <<< lo = c &&& fieldMask lo w := by
    refine BitVec.eq_of_getLsbD_eq fun k hk => ?_
    rw [BitVec.ofNat_toNat]
    by_cases below : k < lo
    · simp [fieldMask, below]
    · have place : lo + (k - lo) = k := by omega
      simp [fieldMask, below, hk, place, Bool.and_comm]
  rw [withIndex, field]

theorem cmdMask_bit {k : Nat} (hk : k < 28) : (0xFFFFFFC : Cmd).getLsbD k = decide (2 ≤ k) := by
  have bits : ∀ k : Fin 28, (0xFFFFFFC : Cmd).getLsbD k.val = decide (2 ≤ k.val) := by decide
  exact bits ⟨k, hk⟩

/-- With OFF[1:0] cleared, CMD is the write bit, the word offset and two zero bits (R100). -/
theorem cmd_parts (c : Cmd) : BitVec.ofBool (cmdIsWrite c) ++ cmdWordOffset c ++ (0 : BitVec 2) = c &&& 0xFFFFFFC := by
  refine BitVec.eq_of_getLsbD_eq fun k hk => ?_
  rw [BitVec.getLsbD_and, cmdMask_bit hk, BitVec.getLsbD_append, BitVec.getLsbD_append]
  by_cases low : k < 2
  · simp [low]
  have high : 2 ≤ k := by omega
  by_cases off : k - 2 < 25
  · have place : 2 + (k - 2) = k := by omega
    simp [cmdWordOffset, low, high, off, place]
  · obtain rfl : k = 27 := by omega
    simp [cmdIsWrite]

theorem cmdWordOffset_append (w : BitVec 1) (off : BitVec 25) : cmdWordOffset (w ++ off ++ (0 : BitVec 2)) = off := by
  refine BitVec.eq_of_getLsbD_eq fun k hk => ?_
  rw [cmdWordOffset, BitVec.getLsbD_extractLsb', BitVec.getLsbD_append, BitVec.getLsbD_append]
  have notLow : ¬2 + k < 2 := by omega
  simp [hk, notLow]

theorem cmdIsWrite_append (w : BitVec 1) (off : BitVec 25) : cmdIsWrite (w ++ off ++ (0 : BitVec 2)) = w.getLsbD 0 := by
  rw [cmdIsWrite, BitVec.getLsbD_append, BitVec.getLsbD_append]
  rfl

theorem cmdWordOffset_masked (c : Cmd) : cmdWordOffset (c &&& 0xFFFFFFC) = cmdWordOffset c := by
  rw [← cmd_parts, cmdWordOffset_append]

/-! ### What a row builds -/

/-- What a row builds is well-formed and of one direction, and encodes to the access that built it; and the row answers
inside the byte ranges of the register map only. -/
structure Row.Faithful (r : Row) : Prop where
  encodes : ∀ c be d, r.hits c = true →
    encode (r.build c be d) = ⟨c &&& 0xFFFFFFC, be, if r.value.getLsbD 27 then d else 0⟩
  direction : ∀ c be d, (r.build c be d).isWrite = r.value.getLsbD 27
  wellFormed : ∀ c be d, (r.build c be d).wellFormed = true
  mapped : ∀ c, r.hits c = true → mappedOffset (4 * (cmdWordOffset c).toNat) = true

/-- A row that looks at every bit but OFF[1:0]: the word that hits it is its value. -/
theorem Row.Faithful.fixed {r : Row} (mask : r.mask = 0xFFFFFFC := by rfl)
    (encodes : ∀ c be d, encode (r.build c be d) = ⟨r.value, be, if r.value.getLsbD 27 then d else 0⟩ := by intros; rfl)
    (direction : ∀ c be d, (r.build c be d).isWrite = r.value.getLsbD 27 := by intros; rfl)
    (wellFormed : ∀ c be d, (r.build c be d).wellFormed = true := by intros; rfl)
    (mapped : mappedOffset (4 * (cmdWordOffset r.value).toNat) = true := by decide) : r.Faithful := by
  have word : ∀ c, r.hits c = true → c &&& 0xFFFFFFC = r.value := fun c hit => mask ▸ Row.hits_iff.mp hit
  exact ⟨fun c be d hit => by rw [encodes, word c hit], direction, wellFormed,
    fun c hit => by rw [← cmdWordOffset_masked, word c hit, mapped]⟩

/-- A row that leaves w bits at bit lo open besides: the word that hits it is its value with that index (R114). -/
theorem Row.Faithful.indexed {r : Row} (lo w : Nat) (mask : r.mask ||| fieldMask lo w = 0xFFFFFFC := by decide)
    (encodes : ∀ c be d, encode (r.build c be d) =
      ⟨withIndex r.value lo (c.extractLsb' lo w).toNat, be, if r.value.getLsbD 27 then d else 0⟩ := by intros; rfl)
    (direction : ∀ c be d, (r.build c be d).isWrite = r.value.getLsbD 27 := by intros; rfl)
    (wellFormed : ∀ c be d, (r.build c be d).wellFormed = true := by intros; rfl)
    (mapped : ∀ k : Fin (2 ^ w), mappedOffset (4 * (cmdWordOffset (withIndex r.value lo k.val)).toNat) = true := by
      decide) : r.Faithful := by
  have word : ∀ c, r.hits c = true → c &&& 0xFFFFFFC = withIndex r.value lo (c.extractLsb' lo w).toNat := by
    intro c hit
    rw [withIndex_field, ← Row.hits_iff.mp hit, ← mask]
    ext k
    simp only [BitVec.getElem_and, BitVec.getElem_or, Bool.and_or_distrib_left]
  exact ⟨fun c be d hit => by rw [encodes, word c hit], direction, wellFormed,
    fun c hit => by rw [← cmdWordOffset_masked, word c hit]; exact mapped (c.extractLsb' lo w).toFin⟩

theorem dmaRows_faithful : dmaRows.Forall Row.Faithful :=
  ⟨.indexed 2 4, .indexed 2 4, .fixed, .fixed, .indexed 4 4, .indexed 4 4, .indexed 4 4, .indexed 4 4,
    .indexed 4 4, .indexed 4 4, .indexed 4 4, .indexed 4 4⟩

theorem timerRows_faithful : timerRows.Forall Row.Faithful :=
  ⟨.indexed 2 2, .indexed 2 2, .fixed, .fixed, .fixed, .fixed, .fixed, .fixed⟩

theorem intcRows_faithful : intcRows.Forall Row.Faithful := by
  and_intros <;> exact .fixed

theorem lcdRows_faithful : lcdRows.Forall Row.Faithful :=
  ⟨.fixed, .fixed, .fixed, .fixed, .fixed, .fixed, .fixed, .fixed, .indexed 4 1, .indexed 4 1, .indexed 4 1,
    .indexed 4 1, .indexed 4 1, .indexed 4 1, .indexed 4 1, .indexed 4 1⟩

theorem gpioRows_faithful : gpioRows.Forall Row.Faithful := by
  and_intros <;> exact .fixed

theorem audioRows_faithful : audioRows.Forall Row.Faithful :=
  ⟨.indexed 2 5, .indexed 2 5, .fixed, .fixed⟩

theorem namedRows_faithful {r : Row} (mem : r ∈ namedRows) : r.Faithful := by
  have all : namedRows.Forall Row.Faithful := by
    simp only [namedRows, registerRows, List.forall_append]
    exact ⟨⟨⟨⟨⟨dmaRows_faithful, timerRows_faithful⟩, intcRows_faithful⟩, lcdRows_faithful⟩, gpioRows_faithful⟩,
      audioRows_faithful⟩
  exact List.forall_iff_forall_mem.mp all r mem

/-! ### Encoding a decoded access -/

/-- Every row looks at the write bit. -/
theorem writeBit_of_hits {r : Row} (mem : r ∈ namedRows) {c : Cmd} (hit : r.hits c = true) :
    r.value.getLsbD 27 = c.getLsbD 27 := by
  have looks : ∀ r ∈ namedRows, r.mask.getLsbD 27 = true := by decide
  rw [← Row.hits_iff.mp hit, BitVec.getLsbD_and, looks r mem, Bool.and_true]

/-- Settles O2: a row gives the word back, and an UNMAPPED instruction holds its parts. -/
theorem encodeOfDecodeIsTheAccess : Obligations.EncodeOfDecodeIsTheAccess := by
  intro a
  obtain ⟨r, mem, hit, eq⟩ | ⟨-, eq⟩ := decode_cases a
  · rw [eq, (namedRows_faithful mem).encodes _ _ _ hit, writeBit_of_hits mem hit]
  · rw [eq, ← cmd_parts, ← cmdIsWrite]
    cases cmdIsWrite a.cmd <;> rfl

/-! ### Where something answers -/

/-- The words the register map assigns, as runs: the first word offset, the length, the rows that answer (R106 to R111). -/
def mappedRuns : List (Nat × Nat × List Row) :=
  [(0x0000000, 16, dmaRows), (0x000003C, 1, dmaRows), (0x0000080, 64, dmaRows), (0x0280000, 6, timerRows),
    (0x0280007, 1, timerRows), (0x0340000, 5, intcRows), (0x1000000, 1, lcdRows), (0x1000002, 2, lcdRows),
    (0x100000E, 1, lcdRows), (0x1000080, 8, lcdRows), (0x0380000, 21, gpioRows), (0x0100000, 33, audioRows)]

/-- Range by range, a run holds the word offset. -/
theorem mappedRuns_cover {w : Nat} (h : mappedOffset (4 * w) = true) :
    ∃ run ∈ mappedRuns, run.1 ≤ w ∧ w < run.1 + run.2.1 := by
  simp only [mappedOffset, dmaOffset, timerOffset, intcOffset, lcdOffset, gpioOffset, audioOffset, Bool.or_eq_true,
    Bool.and_eq_true, decide_eq_true_eq, or_assoc] at h
  simp only [mappedRuns, List.exists_mem_cons_iff, List.not_mem_nil, false_and, exists_false, or_false]
  rcases h with h | h | h | h | h | h | h | h | h | h | h | h <;> omega

/-- In either direction every word of a run hits one of its rows. -/
theorem mappedRuns_hit : ∀ run ∈ mappedRuns, ∀ k < run.2.1, ∀ write : Bool,
    ∃ r ∈ run.2.2, r.hits (BitVec.ofBool write ++ BitVec.ofNat 25 (run.1 + k) ++ (0 : BitVec 2)) = true := by
  decide +kernel

theorem mappedRuns_rows {run : Nat × Nat × List Row} (mem : run ∈ mappedRuns) : run.2.2 ⊆ namedRows := by
  have all : mappedRuns.Forall fun run => run.2.2 ⊆ namedRows := by
    simp +contextual [mappedRuns, namedRows, registerRows, List.subset_def]
  exact List.forall_iff_forall_mem.mp all run mem

/-- No row looks at OFF[1:0] (R105). -/
theorem hits_masked {r : Row} (mem : r ∈ namedRows) (c : Cmd) : r.hits (c &&& 0xFFFFFFC) = r.hits c := by
  have ignores : ∀ r ∈ namedRows, 0xFFFFFFC &&& r.mask = r.mask := by decide
  rw [Row.hits, BitVec.and_assoc, ignores r mem, ← Row.hits]

/-- Some row answers exactly inside the byte ranges of the map. -/
theorem mappedOffset_iff_row (c : Cmd) :
    mappedOffset (4 * (cmdWordOffset c).toNat) = true ↔ ∃ r ∈ namedRows, r.hits c = true := by
  constructor
  · intro h
    obtain ⟨run, mem, first, last⟩ := mappedRuns_cover h
    obtain ⟨r, row, hit⟩ := mappedRuns_hit run mem _ (Nat.sub_lt_left_of_lt_add first last) (cmdIsWrite c)
    have named := mappedRuns_rows mem row
    rw [Nat.add_sub_cancel' first, BitVec.ofNat_toNat, BitVec.setWidth_eq, cmd_parts, hits_masked named] at hit
    exact ⟨r, named, hit⟩
  · rintro ⟨r, mem, hit⟩
    exact (namedRows_faithful mem).mapped c hit

/-- Settles O3: a row's instruction is well-formed, and an UNMAPPED one stands where no row answers. -/
theorem everyAccessDecodesToAWellFormedInstruction : Obligations.EveryAccessDecodesToAWellFormedInstruction := by
  intro a
  have lanes : (decode a).lanes = a.be := congrArg Access.be (encodeOfDecodeIsTheAccess a)
  refine and_assoc.mp ⟨?_, lanes⟩
  obtain ⟨r, mem, hit, eq⟩ | ⟨none, eq⟩ := decode_cases a
  · have row := namedRows_faithful mem
    rw [eq, row.direction, writeBit_of_hits mem hit]
    exact ⟨row.wellFormed _ _ _, rfl⟩
  · have unmapped : mappedOffset (4 * (cmdWordOffset a.cmd).toNat) = false := by
      rw [Bool.eq_false_iff, ne_eq, mappedOffset_iff_row]
      simpa using none
    rw [eq, ← cmdIsWrite]
    cases cmdIsWrite a.cmd <;> exact ⟨by simp [Instr.wellFormed, unmapped], rfl⟩

/-- Settles O5: an UNMAPPED answer is well-formed and names the access's own word offset; where no row answers the access
is UNMAPPED. -/
theorem unmappedExactlyWhereNothingAnswers : Obligations.UnmappedExactlyWhereNothingAnswers := by
  intro a
  obtain ⟨wellFormed, -, -⟩ := everyAccessDecodesToAWellFormedInstruction a
  have word : cmdWordOffset (encodeCmd (decode a)) = cmdWordOffset a.cmd := by
    have cmd : encodeCmd (decode a) = a.cmd &&& 0xFFFFFFC := congrArg Access.cmd (encodeOfDecodeIsTheAccess a)
    rw [cmd, cmdWordOffset_masked]
  rw [← cmdWordOffset]
  constructor
  · rintro (⟨off, be, eq⟩ | ⟨off, be, d, eq⟩) <;>
      rw [eq, encodeCmd, cmdWordOffset_append] at word <;>
      simpa [eq, Instr.wellFormed, word] using wellFormed
  · intro unmapped
    obtain ⟨r, mem, hit, -⟩ | ⟨-, eq⟩ := decode_cases a
    · exact absurd ((mappedOffset_iff_row a.cmd).mpr ⟨r, mem, hit⟩) (by simp [unmapped])
    · cases write : cmdIsWrite a.cmd with
      | false => exact .inl ⟨_, _, by rw [eq, write]; rfl⟩
      | true => exact .inr ⟨_, _, _, by rw [eq, write]; rfl⟩

/-! ### Decoding an encoded instruction -/

/-- The instructions of a replicated register decode back when the row that takes its first word takes the words of every
index and cuts the index out again (R114). -/
theorem decode_encode_indexed {n lo : Nat} {value : Cmd} {r : Row} {read : Cmd → Fin n} (mk : Fin n → Instr) (k : Fin n)
    (cmd : encodeCmd (mk k) = withIndex value lo k.val := by rfl)
    (row : namedRows.find? (fun r => r.hits value) = some r := by rfl)
    (builds : ∀ c, r.build c (mk k).lanes (mk k).writeData = mk (read c) := by intro; rfl)
    (back : ∀ k : Fin n, r.hits (withIndex value lo k.val) = true ∧ read (withIndex value lo k.val) = k := by decide) :
    decode (encode (mk k)) = mk k := by
  obtain ⟨hit, reads⟩ := back k
  rw [encode, cmd, decode_of_row (List.mem_of_find?_eq_some row) hit, builds, reads]

/-- No row answers at an unassigned word offset, in either direction (R105). -/
theorem decode_unmapped {off : BitVec 25} (unmapped : (!mappedOffset (4 * off.toNat)) = true) (w : BitVec 1) (be : Lanes)
    (d : Word) : decode ⟨w ++ off ++ (0 : BitVec 2), be, d⟩ =
      if w.getLsbD 0 then .wrUnmapped off be d else .rdUnmapped off be := by
  have none := mt (mappedOffset_iff_row (w ++ off ++ (0 : BitVec 2))).mpr
  rw [cmdWordOffset_append] at none
  rw [decode_of_no_hit (by simpa using none (by simpa using unmapped)), cmdIsWrite_append, cmdWordOffset_append]

/-- Settles O1: the word of an indexed register reads its index back, a register's only word is evaluated, and an
unassigned offset hits no row. -/
theorem decodeOfEncodeIsTheInstruction : Obligations.DecodeOfEncodeIsTheInstruction := by
  intro i wellFormed
  cases i with
  | rdDcsr ch be => exact decode_encode_indexed (.rdDcsr · be) ch
  | wrDcsr ch be d => exact decode_encode_indexed (.wrDcsr · be d) ch
  | rdDdadr ch be => exact decode_encode_indexed (.rdDdadr · be) ch
  | wrDdadr ch be d => exact decode_encode_indexed (.wrDdadr · be d) ch
  | rdDsadr ch be => exact decode_encode_indexed (.rdDsadr · be) ch
  | wrDsadr ch be d => exact decode_encode_indexed (.wrDsadr · be d) ch
  | rdDtadr ch be => exact decode_encode_indexed (.rdDtadr · be) ch
  | wrDtadr ch be d => exact decode_encode_indexed (.wrDtadr · be d) ch
  | rdDcmd ch be => exact decode_encode_indexed (.rdDcmd · be) ch
  | wrDcmd ch be d => exact decode_encode_indexed (.wrDcmd · be d) ch
  | rdOsmr i be => exact decode_encode_indexed (.rdOsmr · be) i
  | wrOsmr i be d => exact decode_encode_indexed (.wrOsmr · be d) i
  | rdFdadr n be => exact decode_encode_indexed (.rdFdadr · be) n
  | wrFdadr n be d => exact decode_encode_indexed (.wrFdadr · be d) n
  | rdFsadr n be => exact decode_encode_indexed (.rdFsadr · be) n
  | wrFsadr n be d => exact decode_encode_indexed (.wrFsadr · be d) n
  | rdFidr n be => exact decode_encode_indexed (.rdFidr · be) n
  | wrFidr n be d => exact decode_encode_indexed (.wrFidr · be d) n
  | rdLdcmd n be => exact decode_encode_indexed (.rdLdcmd · be) n
  | wrLdcmd n be d => exact decode_encode_indexed (.wrLdcmd · be d) n
  | rdAudio k be => exact decode_encode_indexed (.rdAudio · be) k
  | wrAudio k be d => exact decode_encode_indexed (.wrAudio · be d) k
  | rdUnmapped off be => exact decode_unmapped wellFormed 0 be 0
  | wrUnmapped off be d => exact decode_unmapped wellFormed 1 be d
  | _ => rw [encode, encodeCmd]; exact decode_of_find rfl rfl

/-! ### The register map's offsets -/

/-- Reading and writing are the two command words of one byte offset, the write bit apart (R100). -/
def AtOffset (r w : Instr) (off : Nat) : Prop :=
  (encode r).cmd.toNat = off ∧ (encode w).cmd.toNat = 0x8000000 + off

/-- A replicated register lies at ascending offsets (R114). -/
theorem AtOffset.indexed {r w : Instr} {n lo base scale : Nat} {rd wr : Cmd} (k : Fin n)
    (read : encodeCmd r = withIndex rd lo k.val := by rfl) (write : encodeCmd w = withIndex wr lo k.val := by rfl)
    (offset : ∀ k : Fin n, (withIndex rd lo k.val).toNat = base + scale * k.val ∧
      (withIndex wr lo k.val).toNat = 0x8000000 + (base + scale * k.val) := by decide) :
    AtOffset r w (base + scale * k.val) := by
  rw [AtOffset, encode, encode, read, write]
  exact offset k

/-- A register that each of the three banks has, one word after the other (R110). -/
theorem AtOffset.banked (r w : Bank → Instr) {base : Nat} (b : Bank)
    (words : ∀ b, AtOffset (r b) (w b) (base + 4 * b.val) := by intro b; match b with | 0 | 1 | 2 => exact ⟨rfl, rfl⟩) :
    AtOffset (r b) (w b) (base + 4 * b.val) := words b

/-- Settles O6, register by register in the order of the statement. -/
theorem encodedCommandsAreTheRegisterMap : Obligations.EncodedCommandsAreTheRegisterMap := by
  intro be d ch i n b k r w off mem
  refine (List.forall_iff_forall_mem (p := fun | (r, w, off) => AtOffset r w off)).mp ?_ _ mem
  exact ⟨.indexed ch, ⟨rfl, rfl⟩, .indexed ch, .indexed ch, .indexed ch, .indexed ch,
    .indexed i, ⟨rfl, rfl⟩, ⟨rfl, rfl⟩, ⟨rfl, rfl⟩,
    ⟨rfl, rfl⟩, ⟨rfl, rfl⟩, ⟨rfl, rfl⟩, ⟨rfl, rfl⟩, ⟨rfl, rfl⟩,
    ⟨rfl, rfl⟩, ⟨rfl, rfl⟩, ⟨rfl, rfl⟩, ⟨rfl, rfl⟩, .indexed n, .indexed n, .indexed n, .indexed n,
    .banked (rdGplr · be) (wrGplr · be d) b, .banked (rdGpdr · be) (wrGpdr · be d) b,
    .banked (rdGpsr · be) (wrGpsr · be d) b, .banked (rdGpcr · be) (wrGpcr · be d) b,
    .banked (rdGrer · be) (wrGrer · be d) b, .banked (rdGfer · be) (wrGfer · be d) b,
    .banked (rdGedr · be) (wrGedr · be d) b,
    .indexed k, ⟨rfl, rfl⟩⟩

/-- Settles O7: the row that takes each word, or none. -/
theorem sampleWordsDecode : Obligations.SampleWordsDecode := by
  intro be d
  exact ⟨decode_of_find rfl rfl, decode_of_find rfl rfl, decode_of_find rfl rfl, decode_of_find rfl rfl,
    decode_of_find rfl rfl, decode_of_find rfl rfl, decode_of_no_hit (by decide), decode_of_no_hit (by decide),
    decode_of_find rfl rfl, decode_of_no_hit (by decide), decode_of_no_hit (by decide), decode_of_no_hit (by decide),
    decode_of_find rfl rfl, decode_of_no_hit (by decide), decode_of_no_hit (by decide), decode_of_find rfl rfl,
    decode_of_no_hit (by decide), decode_of_no_hit (by decide), decode_of_find rfl rfl, decode_of_no_hit (by decide),
    decode_of_find rfl rfl, decode_of_find rfl rfl⟩

end Sys2Proof
end

section
/-! ## What every access does

An access is a read, which moves only the model's own fields, or a write, which does nothing without a lane and else has
an effect of its own (40_dispatcher.md R130, R133). One walk over the opcode table says which, and that no effect moves
time or writes memory (R141); the accesses of one row of the register map differ in their lanes and data only. -/

namespace Sys2Proof

/-! ### The reads of a row -/

/-- What the row builds does the same under all lanes and data. -/
def Row.Alike (r : Row) : Prop :=
  ∀ c be d be' d' s, Machine.exec (r.build c be d) s = Machine.exec (r.build c be' d') s

/-- No read of the register map looks at its lanes or its data (40_dispatcher.md R133, R136; 30_encoding.md R101). -/
theorem readRows_alike : (namedRows.filter fun r => !cmdIsWrite r.value).Forall Row.Alike := by
  and_intros <;> intro c be d be' d' s <;> rfl

/-- Accesses of one command word that reads do the same. -/
theorem exec_decode_of_read {a : Access} (read : cmdIsWrite a.cmd = false) (be : Lanes) (d : Word) (s : Machine.State) :
    Machine.exec (decode ⟨a.cmd, be, d⟩) s = Machine.exec (decode a) s := by
  obtain ⟨r, mem, hit, eq⟩ | ⟨none, eq⟩ := decode_cases a
  · have readRow : r ∈ namedRows.filter fun r => !cmdIsWrite r.value := by
      rw [List.mem_filter, cmdIsWrite, writeBit_of_hits mem hit, ← cmdIsWrite, read]
      exact ⟨mem, rfl⟩
    rw [eq, decode_of_row mem hit]
    exact List.forall_iff_forall_mem.mp readRows_alike r readRow _ _ _ _ _ s
  · rw [eq, decode_of_no_hit (by simpa using none), read]
    rfl

end Sys2Proof

namespace Sys2Proof.Machine

/-- Settles O8: the step applies the access, and that is `exec` of what it decodes to. -/
theorem stepRunsTheDecodedAccess : Obligations.StepRunsTheDecodedAccess := by
  intro s a rest i waiting decoded _
  rw [step_of_inbox_cons waiting, applyStimulus, decoded]

/-! ### Accesses move no time and write no memory -/

/-- What the effect of the access i leaves of time and memory: memory is at most read, and only by the two writes that can
load a descriptor; the counter moves only when it is written; a channel whose event is pending keeps its countdown. -/
structure TakesNoTime (i : Instr) (s t : State) : Prop where
  reads : OnlyRead s.mem t.mem
  mem : (∀ ch be d, i ≠ .wrDcsr ch be d) → (∀ be d, i ≠ .wrLccr0 be d) → t.mem = s.mem
  oscr : (∀ be d, i ≠ .wrOscr be d) → t.timer.oscr = s.timer.oscr
  drem : ∀ ch : Channel, (s.chan ch).run = true → (t.chan ch).drem = (s.chan ch).drem
  lrem : ∀ n : LcdCh, s.lcd.lcden.getLsbD n = true → (t.lcdChan n).lrem = (s.lcdChan n).lrem

theorem OnlyRead.of_eq {m m' : Image} (h : m' = m) : OnlyRead m m' := h ▸ .refl m

namespace TakesNoTime

/-- An effect that leaves the memory image, the counter and every countdown. -/
theorem of_same {i : Instr} {s t : State} (mem : t.mem = s.mem := by rfl) (oscr : t.timer.oscr = s.timer.oscr := by rfl)
    (drem : ∀ ch, (t.chan ch).drem = (s.chan ch).drem := by intro; rfl)
    (lrem : ∀ n, (t.lcdChan n).lrem = (s.lcdChan n).lrem := by intro; rfl) : TakesNoTime i s t :=
  ⟨.of_eq mem, fun _ _ => mem, fun _ => oscr, fun ch _ => drem ch, fun n _ => lrem n⟩

/-- An effect on one DMA channel's registers. -/
theorem of_channel {i : Instr} {s : State} {ch : Channel} {c : DmaChannel} (drem : c.drem = (s.chan ch).drem) :
    TakesNoTime i s (s.setChan ch c) := by
  refine .of_same (drem := fun k => ?_)
  rw [State.setChan_chan]
  split
  · next same => rw [same, drem]
  · rfl

/-- An effect on one LCD channel's registers. -/
theorem of_lcdChannel {i : Instr} {s : State} {n : LcdCh} {c : LcdChannel} (lrem : c.lrem = (s.lcdChan n).lrem) :
    TakesNoTime i s (s.setLcdChan n c) := by
  refine .of_same (lrem := fun k => ?_)
  rw [State.setLcdChan_lcdChan]
  split
  · next same => rw [same, lrem]
  · rfl

theorem of_updateDriven {i : Instr} (b : Bank) (g : GpioBank) (s : State) : TakesNoTime i s (updateDriven b g s) := by
  rw [updateDriven_eq]
  exact .of_same

theorem of_updateLatch {i : Instr} (b : Bank) (out : Word) (s : State) : TakesNoTime i s (updateLatch b out s) := by
  rw [updateLatch_eq]
  exact .of_same

end TakesNoTime

theorem writtenImage_onlyRead (be : Lanes) (d : Word) (s : State) (ch : Channel) :
    OnlyRead s.mem (writtenImage be d s ch) := by
  unfold writtenImage
  split
  · exact runImage_onlyRead _ _ _
  · exact .refl _

/-- `WR.DCSR` leaves the countdown of a running channel: only RUN 0 to 1 loads (R151). -/
theorem writtenChannel_drem {be : Lanes} {d : Word} {s : State} {ch : Channel} (run : (s.chan ch).run = true) :
    (writtenChannel be d s ch).drem = (s.chan ch).drem := by
  rw [writtenChannel, run]
  rfl

theorem dcsrWrite_takesNoTime (ch : Channel) (be : Lanes) (d : Word) (s : State) :
    TakesNoTime (.wrDcsr ch be d) s (dcsrWrite ch be d s) := by
  rw [dcsrWrite_eq]
  refine ⟨writtenImage_onlyRead be d s ch, fun other => absurd rfl (other ch be d), fun _ => rfl, fun k run => ?_,
    fun _ _ => rfl⟩
  rw [State.setMem_chan, State.setChan_chan]
  split
  · next same => subst same; exact writtenChannel_drem run
  · rfl

theorem startedImage_onlyRead (n : LcdCh) (be : Lanes) (d : Word) (s : State) :
    OnlyRead s.mem (startedImage n be d s) := by
  unfold startedImage
  split
  · exact runImage_onlyRead _ _ _
  · exact .refl _

theorem lccr0WriteBit_mem (n : LcdCh) (be : Lanes) (d : Word) (s : State) :
    (lccr0WriteBit n be d s).mem = startedImage n be d s := by rw [lccr0WriteBit_eq]; rfl

theorem lccr0WriteBit_timer (n : LcdCh) (be : Lanes) (d : Word) (s : State) :
    (lccr0WriteBit n be d s).timer = s.timer := by rw [lccr0WriteBit_eq]; rfl

theorem lccr0WriteBit_dma (n : LcdCh) (be : Lanes) (d : Word) (s : State) :
    (lccr0WriteBit n be d s).dma = s.dma := by rw [lccr0WriteBit_eq]; rfl

/-- `WR.LCCR0`'s part for channel n leaves a channel that it does not start: another one, or one enabled before. -/
theorem lccr0WriteBit_lcdChan_of_pending {n k : LcdCh} {s : State} (h : k = n → s.lcd.lcden.getLsbD n = true)
    (be : Lanes) (d : Word) : (lccr0WriteBit n be d s).lcdChan k = s.lcdChan k := by
  rw [lccr0WriteBit_lcdChan]
  refine if_neg fun ⟨same, start⟩ => ?_
  simp [startsLcd, h same] at start

theorem lccr0Write_takesNoTime (be : Lanes) (d : Word) (s : State) :
    TakesNoTime (.wrLccr0 be d) s (lccr0WriteBit 1 be d (lccr0WriteBit 0 be d s)) := by
  refine ⟨?_, fun _ other => absurd rfl (other be d), fun _ => ?_, fun ch _ => ?_, fun n enabled => ?_⟩
  · rw [lccr0WriteBit_mem]
    refine OnlyRead.trans ?_ (startedImage_onlyRead _ _ _ _)
    rw [lccr0WriteBit_mem]
    exact startedImage_onlyRead _ _ _ _
  · rw [lccr0WriteBit_timer, lccr0WriteBit_timer]
  · rw [State.chan, lccr0WriteBit_dma, lccr0WriteBit_dma, State.chan]
  · have second : n = 1 → (lccr0WriteBit 0 be d s).lcd.lcden.getLsbD (1 : LcdCh) = true := by
      rintro rfl
      rw [lccr0WriteBit_lcden, if_neg fun first => absurd first.1 (by decide)]
      exact enabled
    rw [lccr0WriteBit_lcdChan_of_pending second, lccr0WriteBit_lcdChan_of_pending fun first => first ▸ enabled]

/-! ### The two kinds of access -/

/-- A read moves only the model's own fields (R23). -/
def ReadsOnly (i : Instr) : Prop :=
  i.isWrite = false ∧ ∀ s, ∃ (v : Word) (n : Nat), exec i s = .next { s with rdata := some v, draws := n }

/-- A write has the two outcomes of `writeAccess`, and its effect moves no time and writes no memory. -/
def Writes (i : Instr) : Prop :=
  i.isWrite = true ∧ ∃ f, (∀ s, exec i s = writeAccess i.lanes f s) ∧ ∀ s, TakesNoTime i s (f s)

/-- Every access is one of the two, row by row of the opcode table. -/
theorem readsOnly_or_writes (i : Instr) : ReadsOnly i ∨ Writes i := by
  cases i with
  | rdDcsr | rdDint | rdDdadr | rdDsadr | rdDtadr | rdDcmd
  | rdOsmr | rdOscr | rdOssr | rdOier
  | rdIcip | rdIcmr | rdIclr | rdIcfp | rdIcpr
  | rdLccr0 | rdLccr2 | rdLccr3 | rdLcsr | rdFdadr | rdFsadr | rdFidr | rdLdcmd
  | rdGplr0 | rdGplr1 | rdGplr2 | rdGpdr0 | rdGpdr1 | rdGpdr2 | rdGpsr0 | rdGpsr1 | rdGpsr2
  | rdGpcr0 | rdGpcr1 | rdGpcr2 | rdGrer0 | rdGrer1 | rdGrer2 | rdGfer0 | rdGfer1 | rdGfer2
  | rdGedr0 | rdGedr1 | rdGedr2 | rdAudio | rdAudioTop | rdUnmapped => exact .inl ⟨rfl, fun s => ⟨_, _, rfl⟩⟩
  | wrIcip | wrIcfp | wrIcpr | wrGplr0 | wrGplr1 | wrGplr2 | wrAudio | wrAudioTop | wrUnmapped =>
    exact .inr ⟨rfl, fun s => s, fun _ => rfl, fun _ => .of_same⟩
  | wrDcsr ch be d => exact .inr ⟨rfl, dcsrWrite ch be d, fun _ => rfl, dcsrWrite_takesNoTime ch be d⟩
  | wrDdadr | wrDsadr | wrDtadr | wrDcmd => exact .inr ⟨rfl, _, fun _ => rfl, fun _ => .of_channel rfl⟩
  | wrOscr =>
    exact .inr ⟨rfl, _, fun _ => rfl, fun _ =>
      ⟨.refl _, fun _ _ => rfl, fun other => absurd rfl (other _ _), fun _ _ => rfl, fun _ _ => rfl⟩⟩
  | wrLccr0 be d => exact .inr ⟨rfl, _, fun _ => rfl, lccr0Write_takesNoTime be d⟩
  | wrFdadr | wrFsadr | wrFidr | wrLdcmd => exact .inr ⟨rfl, _, fun _ => rfl, fun _ => .of_lcdChannel rfl⟩
  | wrGpdr0 | wrGpdr1 | wrGpdr2 => exact .inr ⟨rfl, _, fun _ => rfl, fun _ => .of_updateDriven _ _ _⟩
  | wrGpsr0 | wrGpsr1 | wrGpsr2 | wrGpcr0 | wrGpcr1 | wrGpcr2 =>
    exact .inr ⟨rfl, _, fun _ => rfl, fun _ => .of_updateLatch _ _ _⟩
  | wrDint | wrOsmr | wrOssr | wrOier | wrIcmr | wrIclr | wrLccr2 | wrLccr3 | wrLcsr
  | wrGrer0 | wrGrer1 | wrGrer2 | wrGfer0 | wrGfer1 | wrGfer2 | wrGedr0 | wrGedr1 | wrGedr2 =>
    exact .inr ⟨rfl, _, fun _ => rfl, fun _ => .of_same⟩

/-- Settles O14: a row's reads are alike and move the model's own fields only; a write without a lane has no effect. -/
theorem lanesDoNotMatterToAReadAndNoLaneStopsAWrite : Obligations.LanesDoNotMatterToAReadAndNoLaneStopsAWrite := by
  intro a s
  obtain ⟨-, direction, lanes⟩ := everyAccessDecodesToAWellFormedInstruction a
  refine ⟨fun read => ⟨?_, fun be d => exec_decode_of_read read be d s⟩, fun write noLane => ?_⟩
  · obtain ⟨-, answers⟩ | ⟨isWrite, -⟩ := readsOnly_or_writes (decode a)
    · exact answers s
    · rw [direction, read] at isWrite
      cases isWrite
  · obtain ⟨isRead, -⟩ | ⟨-, f, eq, -⟩ := readsOnly_or_writes (decode a)
    · rw [direction, write] at isRead
      cases isRead
    · rw [eq, lanes, noLane]
      rfl

/-- Settles O15: a read and a write without a lane move the model's own fields only, and else it is the effect that takes
no time, `IntcUpdate` after it touching the interrupt controller alone. -/
theorem accessesTakeNoTimeAndLeaveMemory : Obligations.AccessesTakeNoTimeAndLeaveMemory := by
  intro i s t done
  have noTime : TakesNoTime i s t := by
    obtain ⟨-, answers⟩ | ⟨-, f, eq, noTime⟩ := readsOnly_or_writes i
    · obtain ⟨v, n, eq⟩ := answers s
      obtain rfl := Host.Outcome.next.inj (eq.symm.trans done)
      exact .of_same
    · rw [eq] at done
      obtain ⟨-, rfl⟩ | ⟨-, rfl⟩ := writeAccess_spec done
      · exact .of_same
      · obtain ⟨reads, mem, oscr, drem, lrem⟩ := noTime (s.answer none)
        exact ⟨reads, mem, oscr, drem, lrem⟩
  exact ⟨noTime.reads, fun noDcsr noLccr0 => .of_eq (noTime.mem noDcsr noLccr0), noTime.oscr,
    fun ch run _ => noTime.drem ch run, fun n enabled _ => noTime.lrem n enabled⟩

/-! ### The accesses no sub-block owns -/

theorem audioOffsetOf_eq (k : Nat) : audioOffsetOf k = BitVec.ofNat 27 (0x0400000 + 4 * k) :=
  (BitVec.ofNat_add 0x0400000 (4 * k)).symm

/-- Settles O23: the audio read of word k is the free value of the offset of `audioOffsetOf_eq`. -/
theorem unmappedAndAudioReads : Obligations.UnmappedAndAudioReads := by
  intro s be off k
  refine ⟨rfl, ?_, ?_⟩
  · rw [← audioOffsetOf_eq]
    rfl
  · rw [show (0x0400080 : BitVec 27) = audioOffsetOf 32 from rfl]
    rfl

/-- On settled lines a write without an effect of its own leaves the state, its lanes whatever they are: without a lane
nothing happens, and with one `IntcUpdate` finds the lines as they are. -/
theorem writeAccess_of_no_effect {s : State} (latched : SourcesLatched s) (driven : LinesDriven s) (be : Lanes) :
    writeAccess be (fun s => s) s = .next { s with rdata := none } := by
  refine congrArg Host.Outcome.next (afterWrite_cases (P := (· = s.answer none)) (fun _ => rfl) fun _ => ?_)
  exact intcUpdate_of_latched _ latched driven

/-- Settles O40: each of these writes is a write without an effect of its own. -/
theorem readOnlyAndForeignWritesChangeNothing : Obligations.ReadOnlyAndForeignWritesChangeNothing := by
  intro be d s b off k latched driven
  have nothing := writeAccess_of_no_effect latched driven be
  have gplr : exec (wrGplr b be d) s = .next { s with rdata := none } := match b with | 0 | 1 | 2 => nothing
  exact List.forall_iff_forall_mem.mp ⟨nothing, nothing, nothing, gplr, nothing, nothing, nothing⟩

end Sys2Proof.Machine
end

section
/-! ## The events of one tick, in any order

The order is that of a rank (40_dispatcher.md R139). An event changes only its own slot or channel, and fires at most once
in a tick: so what it does to its own flags does not depend on the events before it, and a completion writes where its
registers pointed when the tick began (R138). -/

namespace Sys2Proof.Machine

/-! ### Every order is that of a rank -/

theorem insertEvent_eq_orderedInsert (rank : Event → Nat) (e : Event) (l : List Event) :
    insertEvent rank e l = l.orderedInsert (rank · ≤ rank ·) e := by
  induction l with
  | nil => rfl
  | cons x rest ih => rw [insertEvent, ih, List.orderedInsert_cons]

/-- The tie order is the insertion sort by rank. -/
theorem tieOrder_eq_insertionSort (rank : Event → Nat) (l : List Event) :
    tieOrder rank l = l.insertionSort (rank · ≤ rank ·) := by
  induction l with
  | nil => rfl
  | cons e rest ih => rw [tieOrder, ih, insertEvent_eq_orderedInsert, List.insertionSort_cons]

theorem tieOrder_sorted (rank : Event → Nat) (l : List Event) :
    (tieOrder rank l).Pairwise fun e x => rank e ≤ rank x := by
  have total : Std.Total fun e x : Event => rank e ≤ rank x := ⟨fun e x => Nat.le_total (rank e) (rank x)⟩
  have trans : IsTrans Event fun e x => rank e ≤ rank x := ⟨fun _ _ _ => Nat.le_trans⟩
  rw [tieOrder_eq_insertionSort]
  exact List.pairwise_insertionSort _ l

/-- A list without repeats is sorted by the places of its own events. -/
theorem pairwise_idxOf {l : List Event} (nodup : l.Nodup) : l.Pairwise fun e x => l.idxOf e ≤ l.idxOf x := by
  rw [List.pairwise_iff_getElem]
  intro i j hi hj lt
  rw [nodup.idxOf_getElem, nodup.idxOf_getElem]
  exact Nat.le_of_lt lt

/-- Settles O57: the rank that gives an order is the place of each event in it. -/
theorem tieOrderIsEveryTotalOrder : Obligations.TieOrderIsEveryTotalOrder := by
  refine ⟨tieOrder_perm, fun l l' nodup perm => ⟨l'.idxOf, ?_⟩⟩
  have samePlace : ∀ e x, e ∈ tieOrder l'.idxOf l → x ∈ l' → l'.idxOf e ≤ l'.idxOf x → l'.idxOf x ≤ l'.idxOf e →
      e = x := fun e x he _ le ge =>
    (List.idxOf_inj (perm.mem_iff.2 ((tieOrder_perm _ l).mem_iff.1 he))).1 (Nat.le_antisymm le ge)
  exact ((tieOrder_perm _ l).trans perm.symm).eq_of_pairwise samePlace (tieOrder_sorted _ l)
    (pairwise_idxOf (perm.nodup_iff.2 nodup))

/-! ### Flags do not depend on the order -/

/-- What an event leaves in a part w of a view v does not depend on the order of the events, when no other event changes
the view, and the view before the event tells the part after it. -/
theorem fireAll_order {α β : Type} {v : State → α} {e : Event} (w : α → β)
    (only : ∀ x s, x ≠ e → v (fireEvent s x) = v s)
    (told : ∀ s t, v t = v s → w (v (fireEvent t e)) = w (v (fireEvent s e)))
    {l l' : List Event} (nodup : l.Nodup) (perm : l'.Perm l) (s : State) :
    w (v (fireAll l' s)) = w (v (fireAll l s)) := by
  by_cases fires : e ∈ l
  · obtain ⟨u, sameView, after⟩ := fireAll_with only nodup fires s
    obtain ⟨u', sameView', after'⟩ := fireAll_with only (perm.nodup_iff.2 nodup) (perm.mem_iff.2 fires) s
    rw [after, after']
    exact told u u' (sameView'.trans sameView.symm)
  · rw [fireAll_without only fires, fireAll_without only (mt perm.mem_iff.1 fires)]

/-- A view that no event changes is the same after any two lists of events. -/
theorem fireAll_unchanged {α : Type} (v : State → α) (keeps : ∀ s e, v (fireEvent s e) = v s) (l l' : List Event)
    (s : State) : v (fireAll l' s) = v (fireAll l s) :=
  (fireAll_keeps v l' s fun e _ u => keeps u e).trans (fireAll_keeps v l s fun e _ u => keeps u e).symm

theorem setBit_same {w k : Nat} (v : BitVec w) (hk : k < w) : (setBit v k).getLsbD k = true := by
  rw [setBit_bit, decide_eq_true hk, decide_eq_true rfl, Bool.true_and, Bool.or_true]

theorem clearBit_same {w k : Nat} (v : BitVec w) : (clearBit v k).getLsbD k = false := by
  rw [clearBit_bit, decide_eq_true rfl, Bool.not_true, Bool.and_false]

/-- What a match, and nothing but a match, moves of slot i: its status and armed bits. -/
def slotView (i : Slot) (s : State) : Bool × Bool := (s.timer.ossr.getLsbD i, s.timer.armed.getLsbD i)

theorem slotView_only (i : Slot) (e : Event) (s : State) (h : e ≠ .tmr i) :
    slotView i (fireEvent s e) = slotView i s := by
  obtain ⟨ossr, armed⟩ := fireEvent_slot s h
  rw [slotView, ossr, armed, slotView]

/-- A match latches its status and disarms its slot (R212). -/
theorem slotView_fire (i : Slot) (s : State) : slotView i (fireEvent s (.tmr i)) = (true, false) := by
  rw [slotView, fireEvent, tmrFire_timer, setBit_same _ i.isLt, clearBit_same]

theorem Timer.eq_of_slots {t t' : Timer} (osmr : t'.osmr = t.osmr) (oscr : t'.oscr = t.oscr) (oier : t'.oier = t.oier)
    (slots : ∀ i : Slot, (t'.ossr.getLsbD i, t'.armed.getLsbD i) = (t.ossr.getLsbD i, t.armed.getLsbD i)) : t' = t := by
  obtain ⟨_, _, ossr, _, armed⟩ := t
  obtain ⟨_, _, ossr', _, armed'⟩ := t'
  have sameOssr : ossr' = ossr := BitVec.eq_of_getLsbD_eq fun k hk => congrArg Prod.fst (slots ⟨k, hk⟩)
  have sameArmed : armed' = armed := BitVec.eq_of_getLsbD_eq fun k hk => congrArg Prod.snd (slots ⟨k, hk⟩)
  rw [Timer.mk.injEq]
  exact ⟨osmr, oscr, sameOssr, oier, sameArmed⟩

theorem fireAll_timer_order {l l' : List Event} (nodup : l.Nodup) (perm : l'.Perm l) (s : State) :
    (fireAll l' s).timer = (fireAll l s).timer := by
  refine Timer.eq_of_slots ?_ ?_ ?_ fun i => ?_
  · exact fireAll_unchanged (·.timer.osmr) (fun s e => (fireEvent_timer s e).1) l l' s
  · exact fireAll_unchanged (·.timer.oscr) (fun s e => (fireEvent_timer s e).2.1) l l' s
  · exact fireAll_unchanged (·.timer.oier) (fun s e => (fireEvent_timer s e).2.2) l l' s
  · exact fireAll_order id (slotView_only i)
      (fun s t _ => (slotView_fire i t).trans (slotView_fire i s).symm) nodup perm s

/-- A channel's flags and stored bits: its registers with the working registers and the countdown blanked. -/
def DmaChannel.flags (c : DmaChannel) : DmaChannel :=
  { c with ddadr := 0, dsadr := 0, dtadr := 0, dcmd := 0, drem := 0 }

/-- Equal flags, flag by flag. -/
theorem DmaChannel.flags_inj {c c' : DmaChannel} (h : c'.flags = c.flags) :
    c'.run = c.run ∧ c'.endFlag = c.endFlag ∧
      c'.busErr = c.busErr ∧ c'.en = c.en ∧ c'.pause = c.pause ∧ c'.req = c.req := by
  obtain ⟨run, en, pause, req, endFlag, busErr, -⟩ := DmaChannel.mk.inj h
  exact ⟨run, endFlag, busErr, en, pause, req⟩

/-- A descriptor load moves the working registers and the countdown only (R164). -/
theorem loadedChannel_flags (m : Image) (c : DmaChannel) : (loadedChannel m c).flags = c.flags := by
  simp only [DmaChannel.flags, loadedChannel]

/-- The memory image a completion meets does not show in the flags it leaves (R165). -/
theorem completedChannel_flags (m m' : Image) (c : DmaChannel) :
    (completedChannel m c).flags = (completedChannel m' c).flags := by
  unfold completedChannel
  split
  · rfl
  · rw [loadedChannel_flags, loadedChannel_flags]

theorem dmaView_fire {ch : Channel} {s : State} (run : (s.chan ch).run = true) :
    dmaView ch (fireEvent s (.dma ch)) =
      (completedChannel (copiedImage (s.chan ch) s.mem) (s.chan ch),
        dcmdEndIrqEn (s.chan ch).dcmd || s.dma.irqp.getLsbD ch) := by
  rw [fireEvent, dmaView, dmaFire_chan_same run, dmaFire_irqp run]
  cases dcmdEndIrqEn (s.chan ch).dcmd
  · rfl
  · rw [if_pos rfl, setBit_same _ ch.isLt, Bool.true_or]

/-- A channel's flags and raw-pending bit. -/
def dmaFlags (v : DmaChannel × Bool) : DmaChannel × Bool := (v.1.flags, v.2)

/-- The flags after a completion are told by the channel before it. -/
theorem dmaFlags_told (ch : Channel) (s t : State) (same : dmaView ch t = dmaView ch s) :
    dmaFlags (dmaView ch (fireEvent t (.dma ch))) = dmaFlags (dmaView ch (fireEvent s (.dma ch))) := by
  obtain ⟨sameChan, sameBit⟩ := Prod.mk.inj same
  cases run : (s.chan ch).run
  · rw [fireEvent, fireEvent, dmaFire_idle run, dmaFire_idle (sameChan ▸ run), same]
  · rw [dmaView_fire run, dmaView_fire (sameChan ▸ run), sameChan, sameBit]
    exact congrArg (·, _) (completedChannel_flags _ _ _)

/-- What of the state belongs to LCD channel n, its branch flag included. -/
def lcdFlagsView (n : LcdCh) (s : State) : LcdView × Bool := (lcdView n s, s.lcd.bs.getLsbD n)

theorem lcdFlagsView_only (n : LcdCh) (e : Event) (s : State) (h : e ≠ .lcd n) :
    lcdFlagsView n (fireEvent s e) = lcdFlagsView n s := by
  obtain ⟨-, -, bs⟩ := fireEvent_lcdBits s h
  rw [lcdFlagsView, lcdView_only n e s h, bs, lcdFlagsView]

/-- A channel's LCDEN, EOF and BS bits. -/
def lcdFlags (v : LcdView × Bool) : Bool × Bool × Bool := (v.1.enabled, v.1.eof, v.2)

/-- An end of frame latches EOF, latches BS with BINT, and with STOP disables (R264). -/
theorem lcdFlags_fire {n : LcdCh} {s : State} (enabled : s.lcd.lcden.getLsbD n = true) :
    lcdFlags (lcdFlagsView n (fireEvent s (.lcd n))) =
      (!ldcmdStop (s.lcdChan n).ldcmd, true, ldcmdBint (s.lcdChan n).ldcmd || s.lcd.bs.getLsbD n) := by
  rw [fireEvent, lcdFlags, lcdFlagsView, lcdView, lcdFire_lcden enabled, lcdFire_eof enabled, lcdFire_bs enabled]
  cases ldcmdStop (s.lcdChan n).ldcmd <;> cases ldcmdBint (s.lcdChan n).ldcmd <;>
    simp only [Bool.false_eq_true, if_true, if_false, clearBit_same, setBit_same _ n.isLt, enabled] <;> rfl

/-- The flags after an end of frame are told by the channel before it. -/
theorem lcdFlags_told (n : LcdCh) (s t : State) (same : lcdFlagsView n t = lcdFlagsView n s) :
    lcdFlags (lcdFlagsView n (fireEvent t (.lcd n))) = lcdFlags (lcdFlagsView n (fireEvent s (.lcd n))) := by
  obtain ⟨sameView, sameBs⟩ := Prod.mk.inj same
  have sameChan : t.lcdChan n = s.lcdChan n := congrArg LcdView.chan sameView
  have sameEnable : t.lcd.lcden.getLsbD n = s.lcd.lcden.getLsbD n := congrArg LcdView.enabled sameView
  cases enabled : s.lcd.lcden.getLsbD n
  · rw [fireEvent, fireEvent, lcdFire_idle enabled, lcdFire_idle (sameEnable.trans enabled), same]
  · rw [lcdFlags_fire enabled, lcdFlags_fire (sameEnable.trans enabled), sameChan, sameBs]

/-- No event moves a port: a completion writes bytes, an end of frame only reads. -/
theorem fireEvent_ports (s : State) (e : Event) : (fireEvent s e).mem.ports = s.mem.ports := by
  cases e with
  | tmr i => rfl
  | dma ch =>
    rw [fireEvent]
    cases run : (s.chan ch).run
    · rw [dmaFire_idle run]
    · rw [dmaFire_mem run, completedImage_ports]
  | lcd n => exact (lcdFire_onlyRead n s).ports

/-- The flags after the same events in two orders, channel by channel and slot by slot. -/
theorem fireAll_sameFlags {l l' : List Event} (nodup : l.Nodup) (perm : l'.Perm l) (s : State) :
    SameFlags (fireAll l s) (fireAll l' s) := by
  have dma (ch : Channel) : dmaFlags (dmaView ch (fireAll l' s)) = dmaFlags (dmaView ch (fireAll l s)) :=
    fireAll_order dmaFlags (dmaView_only ch) (dmaFlags_told ch) nodup perm s
  have chan (ch : Channel) := DmaChannel.flags_inj (congrArg Prod.fst (dma ch))
  have lcd (n : LcdCh) : lcdFlags (lcdFlagsView n (fireAll l' s)) = lcdFlags (lcdFlagsView n (fireAll l s)) :=
    fireAll_order lcdFlags (lcdFlagsView_only n) (lcdFlags_told n) nodup perm s
  have frame := fireAll_frame l s
  have frame' := fireAll_frame l' s
  exact {
    timer := fireAll_timer_order nodup perm s
    irqp := BitVec.eq_of_getLsbD_eq fun k hk => congrArg Prod.snd (dma ⟨k, hk⟩)
    dmaRun := fun ch => (chan ch).1
    dmaEnd := fun ch => (chan ch).2.1
    dmaStored := fun ch => (chan ch).2.2
    lcden := BitVec.eq_of_getLsbD_eq fun k hk => congrArg Prod.fst (lcd ⟨k, hk⟩)
    eof := BitVec.eq_of_getLsbD_eq fun k hk => congrArg (·.2.1) (lcd ⟨k, hk⟩)
    bs := BitVec.eq_of_getLsbD_eq fun k hk => congrArg (·.2.2) (lcd ⟨k, hk⟩)
    lpp := fireAll_unchanged (·.lcd.lpp) (fun s e => (fireEvent_lpp_pcd s e).1) l l' s
    pcd := fireAll_unchanged (·.lcd.pcd) (fun s e => (fireEvent_lpp_pcd s e).2) l l' s
    gpio := frame'.gpio.trans frame.gpio.symm
    intc := frame'.intc.trans frame.intc.symm
    own := ⟨frame'.rdata.trans frame.rdata.symm, frame'.inbox.trans frame.inbox.symm,
      frame'.draws.trans frame.draws.symm⟩
    ports := fireAll_unchanged (·.mem.ports) fireEvent_ports l l' s }

/-- The source word is a function of the flags (R243). -/
theorem SameFlags.sources_eq {s t : State} (h : SameFlags s t) : sources t = sources s := by
  simp only [sources, lcdSource, dmaSource, h.timer, h.irqp, h.bs, h.gpio]

/-- Settles O58: the flags are the same, and the source word follows from them. -/
theorem flagsDoNotDependOnTheTieOrder : Obligations.FlagsDoNotDependOnTheTieOrder := by
  intro l l' s nodup perm
  have same := fireAll_sameFlags nodup perm s
  exact ⟨same, same.sources_eq.symm⟩

/-! ### What a tick leaves of memory -/

/-- The address is no target of the transfer that the channel's working registers describe (R166). -/
def OutsideTarget (a : Word) (c : DmaChannel) : Prop :=
  ∀ k, k < (dcmdLen c.dcmd).toNat → a ≠ rangeAddr (dcmdIncTrg c.dcmd) c.dtadr k

/-- An event leaves a byte of plain memory that is no target of its own transfer. -/
theorem fireEvent_plainByte {e : Event} {s : State} {a : Word} (h : ∀ ch, e = .dma ch → OutsideTarget a (s.chan ch)) :
    plainByte (fireEvent s e).mem a = plainByte s.mem a := by
  cases e with
  | tmr i => rfl
  | dma ch =>
    rw [fireEvent]
    cases run : (s.chan ch).run
    · rw [dmaFire_idle run]
    · rw [dmaFire_mem run, plainByte_completedImage_outside _ _ _ (h ch rfl)]
  | lcd n => exact (lcdFire_onlyRead n s).plain a

/-- Events leave a byte of plain memory that is no target of the transfers, as the channels described them before the
first event: none of them changes the channel of a later one. -/
theorem fireAll_plainByte {l : List Event} (nodup : l.Nodup) {s : State} {a : Word}
    (h : ∀ ch, .dma ch ∈ l → OutsideTarget a (s.chan ch)) : plainByte (fireAll l s).mem a = plainByte s.mem a := by
  induction l generalizing s with
  | nil => rfl
  | cons e rest ih =>
    obtain ⟨notAgain, nodupRest⟩ := List.nodup_cons.1 nodup
    have later : ∀ ch, .dma ch ∈ rest → OutsideTarget a ((fireEvent s e).chan ch) := fun ch mem => by
      have notNow : e ≠ .dma ch := fun same => notAgain (same ▸ mem)
      rw [fireEvent_chan s notNow]
      exact h ch (List.mem_cons_of_mem _ mem)
    have now : ∀ ch, e = .dma ch → OutsideTarget a (s.chan ch) := fun ch same => h ch (same ▸ List.mem_cons_self)
    exact (ih nodupRest later).trans (fireEvent_plainByte now)

/-- Without a completion among them the events only read memory. -/
theorem fireAll_onlyRead {l : List Event} (noDma : ∀ ch, .dma ch ∉ l) (s : State) : OnlyRead s.mem (fireAll l s).mem := by
  induction l generalizing s with
  | nil => exact .refl _
  | cons e rest ih =>
    have now : OnlyRead s.mem (fireEvent s e).mem := by
      cases e with
      | tmr i => exact .refl _
      | dma ch => exact absurd List.mem_cons_self (noDma ch)
      | lcd n => exact lcdFire_onlyRead n s
    exact now.trans (ih (fun ch mem => noDma ch (List.mem_cons_of_mem _ mem)) _)

/-- With no channel's event among them the events leave memory. -/
theorem fireAll_mem {l : List Event} (noDma : ∀ ch, .dma ch ∉ l) (noLcd : ∀ n, .lcd n ∉ l) (s : State) :
    (fireAll l s).mem = s.mem := by
  refine fireAll_keeps (·.mem) l s fun e mem u => ?_
  cases e with
  | tmr i => rfl
  | dma ch => exact absurd mem (noDma ch)
  | lcd n => exact absurd mem (noLcd n)

theorem tickStep_mem (s : State) : (tickStep s).mem = (fireAll (firingOrder s) (advanceTime s)).mem := by
  rw [tickStep, intcUpdate_mem, State.answer_mem, State.draw_mem]

theorem tickStep_lcd (s : State) : (tickStep s).lcd = (fireAll (firingOrder s) (advanceTime s)).lcd := by
  rw [tickStep, intcUpdate_lcd, State.answer_lcd, State.draw_lcd]

/-- Counting down does not move a transfer's target. -/
theorem OutsideTarget.countDown {a : Word} {c : DmaChannel} (h : OutsideTarget a c) :
    OutsideTarget a (countDownDma c) := by
  unfold countDownDma
  split
  · exact h
  · exact h

theorem dma_mem_firingOrder_iff (s : State) (ch : Channel) :
    .dma ch ∈ firingOrder s ↔ (s.chan ch).run = true ∧ (s.chan ch).drem ≤ 1 := by
  rw [dma_mem_firingOrder, dmaDue_advanceTime, Bool.and_eq_true, decide_eq_true_iff]

theorem lcd_mem_firingOrder_iff (s : State) (n : LcdCh) :
    .lcd n ∈ firingOrder s ↔ s.lcd.lcden.getLsbD n = true ∧ (s.lcdChan n).lrem ≤ 1 := by
  rw [lcd_mem_firingOrder, lcdDue_advanceTime, Bool.and_eq_true, decide_eq_true_iff]

/-! ### What a tick leaves of the rest -/

theorem tickStep_gpio (s : State) : (tickStep s).gpio = s.gpio := by
  rw [tickStep, intcUpdate_gpio, State.answer_gpio, State.draw_gpio, (fireAll_frame _ _).gpio, advanceTime_gpio]

theorem tickStep_inbox (s : State) : (tickStep s).inbox = s.inbox := by
  rw [tickStep, intcUpdate_inbox, State.answer_inbox, State.draw_inbox, (fireAll_frame _ _).inbox, advanceTime_inbox]

theorem tickStep_icmr (s : State) : (tickStep s).intc.icmr = s.intc.icmr := by
  rw [tickStep, intcUpdate_icmr, State.answer_intc, State.draw_intc, (fireAll_frame _ _).intc, advanceTime_intc]

theorem tickStep_iclr (s : State) : (tickStep s).intc.iclr = s.intc.iclr := by
  rw [tickStep, intcUpdate_iclr, State.answer_intc, State.draw_intc, (fireAll_frame _ _).intc, advanceTime_intc]

theorem tickStep_lpp (s : State) : (tickStep s).lcd.lpp = s.lcd.lpp := by
  rw [tickStep_lcd, fireAll_keeps (·.lcd.lpp) _ _ fun e _ u => (fireEvent_lpp_pcd u e).1, advanceTime_lpp]

theorem tickStep_pcd (s : State) : (tickStep s).lcd.pcd = s.lcd.pcd := by
  rw [tickStep_lcd, fireAll_keeps (·.lcd.pcd) _ _ fun e _ u => (fireEvent_lpp_pcd u e).2, advanceTime_pcd]

theorem tickStep_ports (s : State) : (tickStep s).mem.ports = s.mem.ports := by
  rw [tickStep_mem, fireAll_keeps (·.mem.ports) _ _ fun e _ u => fireEvent_ports u e, advanceTime_mem]

theorem tickStep_settled (s : State) : Settled (tickStep s) := intcUpdate_settled _

/-- A tick leaves every byte of plain memory but the targets of the transfers that complete in it (R72, R138, R166). -/
theorem tickStep_plainByte {s : State} {a : Word}
    (h : ∀ ch : Channel, (s.chan ch).run = true → (s.chan ch).drem ≤ 1 → OutsideTarget a (s.chan ch)) :
    plainByte (tickStep s).mem a = plainByte s.mem a := by
  have targets : ∀ ch, .dma ch ∈ firingOrder s → OutsideTarget a ((advanceTime s).chan ch) := fun ch due => by
    obtain ⟨run, last⟩ := (dma_mem_firingOrder_iff s ch).1 due
    rw [advanceTime_chan]
    exact (h ch run last).countDown
  rw [tickStep_mem, fireAll_plainByte (firingOrder_nodup s) targets, advanceTime_mem]

theorem dma_not_mem_firingOrder {s : State} (h : ∀ ch : Channel, (s.chan ch).run = true → 2 ≤ (s.chan ch).drem)
    (ch : Channel) : .dma ch ∉ firingOrder s := by
  rw [dma_mem_firingOrder_iff]
  rintro ⟨run, last⟩
  exact absurd (h ch run) (by omega)

theorem lcd_not_mem_firingOrder {s : State} (h : ∀ n : LcdCh, s.lcd.lcden.getLsbD n = true → 2 ≤ (s.lcdChan n).lrem)
    (n : LcdCh) : .lcd n ∉ firingOrder s := by
  rw [lcd_mem_firingOrder_iff]
  rintro ⟨enabled, last⟩
  exact absurd (h n enabled) (by omega)

/-- Settles O54, clause by clause: what no event changes, the bytes outside the targets, and memory with no completion
due, or nothing due but matches. -/
theorem tickLeavesTheRest : Obligations.TickLeavesTheRest := by
  intro s
  refine ⟨tickStep_gpio s, tickStep_icmr s, tickStep_iclr s, tickStep_lpp s, tickStep_pcd s, tickStep_inbox s, rfl,
    tickStep_settled s, fun a outside => ?_, tickStep_ports s, fun noDma => ⟨?_, fun noLcd => .of_eq ?_⟩⟩
  · exact tickStep_plainByte fun ch run last k => outside ch k run last
  · rw [tickStep_mem]
    exact fireAll_onlyRead (dma_not_mem_firingOrder noDma) (advanceTime s)
  · rw [tickStep_mem, fireAll_mem (dma_not_mem_firingOrder noDma) (lcd_not_mem_firingOrder noLcd), advanceTime_mem]

end Sys2Proof.Machine
end

section
/-! ## The register operations of the DMA Engine

A read answers the register as it stands (41_dma.md R150 to R160). A write merges the enabled lanes into one register, and a
write without a lane merges nothing (R151 to R161). -/

namespace Sys2Proof.Machine

/-! ### The word of DCSR -/

theorem dcsrWord_run (c : DmaChannel) : (dcsrWord c).getLsbD 31 = c.run := by
  rw [dcsrWord_bit _ _ (by decide)]
  simp

theorem dcsrWord_en (c : DmaChannel) : (dcsrWord c).getLsbD 30 = c.en := by
  rw [dcsrWord_bit _ _ (by decide)]
  simp

theorem dcsrWord_pause (c : DmaChannel) : (dcsrWord c).getLsbD 29 = c.pause := by
  rw [dcsrWord_bit _ _ (by decide)]
  simp

theorem dcsrWord_endFlag (c : DmaChannel) : (dcsrWord c).getLsbD 2 = c.endFlag := by
  rw [dcsrWord_bit _ _ (by decide)]
  simp

theorem dcsrWord_busErr (c : DmaChannel) : (dcsrWord c).getLsbD 0 = c.busErr := by
  rw [dcsrWord_bit _ _ (by decide)]
  simp

theorem dcsrWord_req (c : DmaChannel) {k : Nat} (hk : k < 6) : (dcsrWord c).getLsbD (8 + k) = c.req.getLsbD k := by
  have noFlag : 8 + k ≠ 31 ∧ 8 + k ≠ 30 ∧ 8 + k ≠ 29 ∧ 8 + k ≠ 2 ∧ 8 + k ≠ 0 := by omega
  rw [dcsrWord_bit _ _ (by omega), decide_eq_false (by omega : ¬8 + k < 8), Nat.add_sub_cancel_left]
  simp [noFlag]

/-- The bits of DCSR that no field takes read 0 (10_state.md R25, R31). -/
theorem dcsrWord_reserved (c : DmaChannel) {k : Nat} (hk : k = 1 ∨ (3 ≤ k ∧ k ≤ 7) ∨ (14 ≤ k ∧ k ≤ 28)) :
    (dcsrWord c).getLsbD k = false := by
  have noFlag : k ≠ 31 ∧ k ≠ 30 ∧ k ≠ 29 ∧ k ≠ 2 ∧ k ≠ 0 := by omega
  have noReq : (!decide (k < 8) && c.req.getLsbD (k - 8)) = false := by
    rcases Nat.lt_or_ge k 8 with low | high
    · rw [decide_eq_true low, Bool.not_true, Bool.false_and]
    · rw [bit_high c.req _ (by omega), Bool.and_false]
  rw [dcsrWord_bit _ _ (by omega), noReq]
  simp [noFlag]

/-- Settles O18: each read answers its register's word; the bits of DCSR are those of its fields. -/
theorem dmaReadsReturnTheRegisters : Obligations.DmaReadsReturnTheRegisters := by
  intro s ch be
  refine ⟨⟨dcsrWord (s.chan ch), rfl, dcsrWord_run _, dcsrWord_en _, dcsrWord_pause _, fun k => dcsrWord_req _,
    dcsrWord_endFlag _, dcsrWord_busErr _, fun k => dcsrWord_reserved _⟩, ⟨dintWord s.dma, rfl, fun k => ?_⟩,
    rfl, rfl, rfl, rfl⟩
  rw [dintWord, BitVec.getLsbD_setWidth]
  by_cases hk : k < 32
  · rw [decide_eq_true hk, Bool.true_and]
  · rw [bit_high s.dma.irqp k (by omega), Bool.and_false]

/-! ### The working registers -/

/-- A lane-masked write of one register of a channel, read by `get` and replaced by `set`. -/
theorem writeAccess_stores (get : DmaChannel → Word) (set : DmaChannel → Word → DmaChannel)
    (get_set : ∀ c v, get (set c v) = v) (set_get : ∀ c, set c (get c) = c) (w : Word) (ch : Channel) (be : Lanes)
    (d : Word) (s : State) :
    ∃ t, writeAccess be
        (fun s => s.setChan ch (set (s.chan ch) (merge (get (s.chan ch)) d (laneMask be) w))) s = .next t ∧
      Merged (get (s.chan ch)) (get (t.chan ch)) d w be ∧ t.chan ch = set (s.chan ch) (get (t.chan ch)) ∧
      OnlyChannel ch be s s.mem t := by
  have only := afterWrite_onlyChannel ch be
    (fun s => s.setChan ch (set (s.chan ch) (merge (get (s.chan ch)) d (laneMask be) w)))
    (fun s => set (s.chan ch) (merge (get (s.chan ch)) d (laneMask be) w)) s s.mem (fun _ => rfl) rfl
  refine ⟨_, rfl, ?_, ?_, only⟩
  · refine afterWrite_cases (P := fun t => Merged _ (get (t.chan ch)) d w be) (fun noLane => ?_) fun _ => ?_
    · subst noLane
      simpa using merge_merged (get (s.chan ch)) d w 0
    · rw [intcUpdate_chan, State.setChan_chan_same, get_set]
      exact merge_merged _ _ _ _
  · refine afterWrite_cases (P := fun t => t.chan ch = set (s.chan ch) (get (t.chan ch))) (fun _ => ?_) fun _ => ?_
    · rw [State.answer_chan, set_get]
    · rw [intcUpdate_chan, State.setChan_chan_same, get_set, State.answer_chan]

/-- Settles O24: each of the four writes stores one register of its channel. -/
theorem dmaWorkingRegisterWritesOnlyStore : Obligations.DmaWorkingRegisterWritesOnlyStore := by
  intro ch be d s
  exact ⟨
    writeAccess_stores (·.ddadr) (fun c v => { c with ddadr := v }) (fun _ _ => rfl) (fun _ => rfl) wAll ch be d s,
    writeAccess_stores (·.dsadr) (fun c v => { c with dsadr := v }) (fun _ _ => rfl) (fun _ => rfl) wAll ch be d s,
    writeAccess_stores (·.dtadr) (fun c v => { c with dtadr := v }) (fun _ _ => rfl) (fun _ => rfl) wAll ch be d s,
    writeAccess_stores (·.dcmd) (fun c v => { c with dcmd := v }) (fun _ _ => rfl) (fun _ => rfl) wDcmd ch be d s⟩

/-! ### DINT -/

/-- The raw-pending bits after a write of DINT, bit by bit (R153). -/
theorem dintCleared_bit (x : Dma) (be : Lanes) (d : Word) (ch : Channel) :
    ((w1c (dintWord x) d (laneMask be) fDint).setWidth 16).getLsbD ch =
      (x.irqp.getLsbD ch && !(laneOn be ch && d.getLsbD ch)) := by
  have flagBit : ∀ ch : Channel, fDint.getLsbD ch = true := by decide
  have low : ch.val < 32 := by omega
  rw [BitVec.getLsbD_setWidth, w1c_bit _ _ _ _ _ low, laneMask_bit _ _ low, flagBit, dintWord, BitVec.getLsbD_setWidth,
    decide_eq_true ch.isLt, decide_eq_true low, Bool.true_and, Bool.true_and, Bool.and_true, Bool.and_comm (d.getLsbD _)]

/-- Settles O26: without a lane no bit is enabled, and with one the effect is `dintCleared_bit` and touches nothing else. -/
theorem dintWriteClearsWrittenBits : Obligations.DintWriteClearsWrittenBits := by
  intro be d s
  refine ⟨_, rfl, fun ch => ?_, ?_, ?_, ?_, ?_, ?_, afterWrite_sameMem rfl, afterWrite_own rfl rfl rfl,
    afterWrite_intcFollows rfl⟩
  · refine afterWrite_cases (P := fun t => t.dma.irqp.getLsbD ch = _) (fun noLane => ?_) fun _ => dintCleared_bit _ _ _ _
    subst noLane
    simp [laneOn]
  · exact afterWrite_cases (P := fun t => t.dma.chan = s.dma.chan) (fun _ => rfl) fun _ => rfl
  · exact afterWrite_cases (P := fun t => t.timer = s.timer) (fun _ => rfl) fun _ => rfl
  · exact afterWrite_cases (P := fun t => t.lcd = s.lcd) (fun _ => rfl) fun _ => rfl
  · exact afterWrite_cases (P := fun t => t.gpio = s.gpio) (fun _ => rfl) fun _ => rfl
  · exact afterWrite_cases (P := fun t => t.trace = s.trace) (fun _ => rfl) fun _ => rfl

/-! ### DCSR -/

/-- A lane-masked write of DCSR, at a writable bit. -/
theorem dcsrMerge_bit (c : DmaChannel) (be : Lanes) (d : Word) {k : Nat} (writable : wDcsr.getLsbD k = true) :
    (merge (dcsrWord c) d (laneMask be) wDcsr).getLsbD k =
      if laneOn be k then d.getLsbD k else (dcsrWord c).getLsbD k := by
  have hk : k < 32 := by
    by_contra high
    rw [bit_high _ _ high] at writable
    cases writable
  rw [merge_bit _ _ _ _ _ hk, laneMask_bit _ _ hk, writable, Bool.and_true]

theorem dcsrMerged_run (c : DmaChannel) (be : Lanes) (d : Word) :
    (dcsrMerged c be d).run = if be.getLsbD 3 then d.getLsbD 31 else c.run := by
  exact (dcsrMerge_bit c be d (by decide)).trans (by rw [dcsrWord_run]; rfl)

theorem dcsrMerged_en (c : DmaChannel) (be : Lanes) (d : Word) :
    (dcsrMerged c be d).en = if be.getLsbD 3 then d.getLsbD 30 else c.en := by
  exact (dcsrMerge_bit c be d (by decide)).trans (by rw [dcsrWord_en]; rfl)

theorem dcsrMerged_pause (c : DmaChannel) (be : Lanes) (d : Word) :
    (dcsrMerged c be d).pause = if be.getLsbD 3 then d.getLsbD 29 else c.pause := by
  exact (dcsrMerge_bit c be d (by decide)).trans (by rw [dcsrWord_pause]; rfl)

theorem dcsrMerged_req (c : DmaChannel) (be : Lanes) (d : Word) {k : Nat} (hk : k < 6) :
    (dcsrMerged c be d).req.getLsbD k = if be.getLsbD 1 then d.getLsbD (8 + k) else c.req.getLsbD k := by
  have writable : ∀ k : Fin 6, wDcsr.getLsbD (8 + k) = true := by decide
  have lane : (8 + k) / 8 = 1 := by omega
  simp only [dcsrMerged]
  rw [BitVec.getLsbD_extractLsb', decide_eq_true hk, Bool.true_and, dcsrMerge_bit c be d (writable ⟨k, hk⟩),
    dcsrWord_req c hk, laneOn, lane]

/-- A flag is cleared exactly when its lane is enabled and a 1 is written (10_state.md R24). -/
theorem clearFlag_eq (flag : Bool) {k : Nat} (hk : k < 32) (be : Lanes) (d : Word) :
    clearFlag flag k be d = (flag && !(laneOn be k && d.getLsbD k)) := by
  rw [clearFlag, lanedData, BitVec.getLsbD_and, laneMask_bit _ _ hk, Bool.and_comm (d.getLsbD k)]

/-- Without a lane a write of DCSR stores nothing (40_dispatcher.md R133). -/
theorem dcsrMerged_noLane (c : DmaChannel) (d : Word) : dcsrMerged c 0 d = c := by
  have run : (dcsrMerged c 0 d).run = c.run := dcsrMerged_run c 0 d
  have en : (dcsrMerged c 0 d).en = c.en := dcsrMerged_en c 0 d
  have pause : (dcsrMerged c 0 d).pause = c.pause := dcsrMerged_pause c 0 d
  have req : (dcsrMerged c 0 d).req = c.req := BitVec.eq_of_getLsbD_eq fun k hk => dcsrMerged_req c 0 d hk
  have endFlag : clearFlag c.endFlag 2 0 d = c.endFlag := by simp [clearFlag, lanedData]
  have busErr : clearFlag c.busErr 0 0 d = c.busErr := by simp [clearFlag, lanedData]
  calc dcsrMerged c 0 d
      = { c with
          run := (dcsrMerged c 0 d).run, en := (dcsrMerged c 0 d).en, pause := (dcsrMerged c 0 d).pause
          req := (dcsrMerged c 0 d).req, endFlag := clearFlag c.endFlag 2 0 d
          busErr := clearFlag c.busErr 0 0 d } := rfl
    _ = c := by rw [run, en, pause, req, endFlag, busErr]

/-- `WR.DCSR` starts its channel: RUN goes from 0 to 1 (R151, R163). -/
abbrev StartsChannel (be : Lanes) (d : Word) (c : DmaChannel) : Prop := c.run = false ∧ (dcsrMerged c be d).run = true

theorem starts_iff (be : Lanes) (d : Word) (c : DmaChannel) :
    (!c.run && (dcsrMerged c be d).run) = true ↔ StartsChannel be d c := by
  rw [Bool.and_eq_true, Bool.not_eq_true', StartsChannel]

theorem writtenChannel_of_starts {be : Lanes} {d : Word} {s : State} {ch : Channel}
    (h : StartsChannel be d (s.chan ch)) :
    writtenChannel be d s ch = loadedChannel s.mem (dcsrMerged (s.chan ch) be d) :=
  if_pos ((starts_iff be d _).2 h)

theorem writtenChannel_of_not_starts {be : Lanes} {d : Word} {s : State} {ch : Channel}
    (h : ¬StartsChannel be d (s.chan ch)) : writtenChannel be d s ch = dcsrMerged (s.chan ch) be d :=
  if_neg (mt (starts_iff be d _).1 h)

/-- A start loads working registers only: the stored bits and the flags are the merged ones. -/
theorem writtenChannel_flags (be : Lanes) (d : Word) (s : State) (ch : Channel) :
    (writtenChannel be d s ch).flags = (dcsrMerged (s.chan ch) be d).flags := by
  by_cases start : StartsChannel be d (s.chan ch)
  · rw [writtenChannel_of_starts start, loadedChannel_flags]
  · rw [writtenChannel_of_not_starts start]

theorem not_starts_of_noLane {be : Lanes} (noLane : be = 0) (d : Word) (c : DmaChannel) : ¬StartsChannel be d c := by
  subst noLane
  rintro ⟨idle, running⟩
  rw [dcsrMerged_noLane, idle] at running
  cases running

/-- The channel after `WR.DCSR`, under every lane mask. -/
theorem afterWrite_dcsr_chan (ch : Channel) (be : Lanes) (d : Word) (s : State) :
    (afterWrite be (dcsrWrite ch be d) s).chan ch = writtenChannel be d s ch := by
  refine afterWrite_cases (P := fun t => t.chan ch = _) (fun noLane => ?_) fun _ => ?_
  · rw [writtenChannel_of_not_starts (not_starts_of_noLane noLane d _), noLane, dcsrMerged_noLane]
    rfl
  · rw [dcsrWrite_eq, intcUpdate_chan, State.setMem_chan, State.setChan_chan_same]
    rfl

theorem dcsrWrite_onlyChannel (ch : Channel) (be : Lanes) (d : Word) (s : State) :
    OnlyChannel ch be s (writtenImage be d s ch) (afterWrite be (dcsrWrite ch be d) s) := by
  refine afterWrite_onlyChannel ch be _ (fun s => writtenChannel be d s ch) s _ (fun noLane => ?_) (dcsrWrite_eq ..)
  exact if_neg (mt (starts_iff be d _).1 (not_starts_of_noLane noLane d _))

/-- Settles O25: the stored bits are those of the merged register, and by cases on the start the working registers are
loaded from the descriptor or kept. -/
theorem dcsrWriteStoresClearsAndStarts : Obligations.DcsrWriteStoresClearsAndStarts := by
  intro ch be d s
  have only := dcsrWrite_onlyChannel ch be d s
  have chan := afterWrite_dcsr_chan ch be d s
  obtain ⟨run, endFlag, busErr, en, pause, req⟩ := DmaChannel.flags_inj (writtenChannel_flags be d s ch)
  refine ⟨afterWrite be (dcsrWrite ch be d) s, rfl, ?_⟩
  rw [chan, run, en, pause, req, endFlag, busErr]
  refine ⟨dcsrMerged_run .., dcsrMerged_en .., dcsrMerged_pause .., fun k => dcsrMerged_req _ _ _,
    clearFlag_eq _ (by decide) _ _, clearFlag_eq _ (by decide) _ _, ?_⟩
  by_cases start : StartsChannel be d (s.chan ch)
  · rw [writtenImage, if_pos ((starts_iff be d _).2 start)] at only
    rw [if_pos start, if_pos start, writtenChannel_of_starts start]
    exact ⟨loadedChannel_loaded s.mem (dcsrMerged (s.chan ch) be d), only⟩
  · rw [writtenImage, if_neg (mt (starts_iff be d _).1 start)] at only
    rw [if_neg start, if_neg start, writtenChannel_of_not_starts start]
    exact ⟨⟨rfl, rfl, rfl, rfl, rfl⟩, only⟩

end Sys2Proof.Machine
end

section
/-! ## A DMA copy, move by move

A copy is a sequence of images, one move of a byte from each to the next (41_dma.md R166). A byte of plain memory ends as the
last move to its address left it; what that move read depends on whether earlier moves have met its source, and on whether
the source is a port (20_memory.md R71, R79). -/

namespace Sys2Proof.Machine

/-! ### One move -/

/-- What a byte of plain memory is after a move to a plain target. -/
theorem plainByte_moveByte {m : Image} {trg : Word} (plain : m.isPort trg = false) (src a : Word) :
    plainByte (moveByte m src trg) a = if a = trg then readByte m src else plainByte m a := by
  simp [moveByte, plainByte_writeByte, plain]

/-- A move from a port to plain memory uses up one answer and records one read. -/
theorem moveByte_from_port {m : Image} {src trg : Word} (port : m.isPort src = true) (plain : m.isPort trg = false) :
    (moveByte m src trg).answers = m.answers.tail ∧
      (moveByte m src trg).log = m.log ++ [.read src (readByte m src)] := by
  have stillPlain : (afterRead m src).isPort trg = false := by rw [afterRead_isPort, plain]
  rw [moveByte, writeByte_plain_frame _ stillPlain, afterRead_port port]
  exact ⟨rfl, rfl⟩

/-- A move from plain memory to a port hands the byte over and changes nothing else. -/
theorem moveByte_to_port {m : Image} {src trg : Word} (plain : m.isPort src = false) (port : m.isPort trg = true) :
    moveByte m src trg = { m with log := m.log ++ [.write trg (plainByte m src)] } := by
  rw [moveByte, afterRead_plain plain, readByte_plain plain, writeByte_port _ port]

/-! ### The images of a copy -/

/-- The source address of byte k of the transfer that a channel's working registers describe (R166). -/
def DmaChannel.source (c : DmaChannel) (k : Nat) : Word := rangeAddr (dcmdIncSrc c.dcmd) c.dsadr k

/-- The target address of byte k of the transfer (R166). -/
def DmaChannel.target (c : DmaChannel) (k : Nat) : Word := rangeAddr (dcmdIncTrg c.dcmd) c.dtadr k

/-- The length of the transfer, LEN. -/
def DmaChannel.len (c : DmaChannel) : Nat := (dcmdLen c.dcmd).toNat

/-- The image after the first k moves of the transfer from the image m. -/
def DmaChannel.moved (c : DmaChannel) (m : Image) (k : Nat) : Image :=
  copyBytes (dcmdIncSrc c.dcmd) (dcmdIncTrg c.dcmd) k c.dsadr c.dtadr m

section
variable {c : DmaChannel} {m : Image} {k n : Nat}

@[simp] theorem moved_zero (c : DmaChannel) (m : Image) : c.moved m 0 = m := rfl

theorem moved_succ (c : DmaChannel) (m : Image) (k : Nat) :
    c.moved m (k + 1) = moveByte (c.moved m k) (c.source k) (c.target k) := copyBytes_snoc ..

theorem copiedImage_eq_moved (c : DmaChannel) (m : Image) : copiedImage c m = c.moved m c.len := rfl

@[simp] theorem moved_isPort (c : DmaChannel) (m : Image) (k : Nat) (a : Word) : (c.moved m k).isPort a = m.isPort a :=
  Image.isPort_congr (copyBytes_ports ..) a

theorem moved_outside {a : Word} (outside : ∀ l, l < k → a ≠ c.target l) :
    plainByte (c.moved m k) a = plainByte m a := plainByte_copyBytes_outside _ _ _ _ _ _ _ outside

/-- A plain target byte that no later move meets ends as what its own move read. -/
theorem moved_target (hk : k < n) (plain : m.isPort (c.target k) = false)
    (last : ∀ l, k < l → l < n → c.target k ≠ c.target l) :
    plainByte (c.moved m n) (c.target k) = readByte (c.moved m k) (c.source k) := by
  induction n with
  | zero => exact absurd hk (Nat.not_lt_zero k)
  | succ n ih =>
    rw [moved_succ]
    rcases Nat.lt_succ_iff_lt_or_eq.1 hk with earlier | rfl
    · rw [plainByte_moveByte_other _ (last n earlier (Nat.lt_succ_self n))]
      exact ih earlier fun l kl ln => last l kl (Nat.lt_succ_of_lt ln)
    · rw [plainByte_moveByte (by rw [moved_isPort, plain]), if_pos rfl]

/-- A plain source byte that no earlier move meets is read as it was before the copy. -/
theorem moved_source (plain : m.isPort (c.source k) = false) (untouched : ∀ l, l < k → c.source k ≠ c.target l) :
    readByte (c.moved m k) (c.source k) = plainByte m (c.source k) := by
  rw [readByte_plain (by rw [moved_isPort, plain]), moved_outside untouched]

/-- A byte moved onto itself again and again keeps its value. -/
theorem moved_onto_itself {a : Word} (plain : m.isPort a = false) (src : ∀ l, l < k → c.source l = a)
    (trg : ∀ l, l < k → c.target l = a) : plainByte (c.moved m k) a = plainByte m a := by
  induction k with
  | zero => rfl
  | succ k ih =>
    have stillPlain : (c.moved m k).isPort a = false := by rw [moved_isPort, plain]
    have before := ih (fun l hl => src l (Nat.lt_succ_of_lt hl)) fun l hl => trg l (Nat.lt_succ_of_lt hl)
    rw [moved_succ, src k (Nat.lt_succ_self k), trg k (Nat.lt_succ_self k), plainByte_moveByte stillPlain, if_pos rfl,
      readByte_plain stillPlain, before]

/-- Moves from ports to plain memory use up one answer each, in order, and record the reads (R79). -/
theorem moved_from_ports (port : ∀ l, l < k → m.isPort (c.source l) = true)
    (plain : ∀ l, l < k → m.isPort (c.target l) = false) (enough : k ≤ m.answers.length) :
    (c.moved m k).answers = m.answers.drop k ∧
      (c.moved m k).log =
        m.log ++ (List.range k).map fun l => .read (c.source l) (m.answers.getD l 0) := by
  induction k with
  | zero => simp
  | succ k ih =>
    obtain ⟨answers, log⟩ := ih (fun l hl => port l (Nat.lt_succ_of_lt hl)) (fun l hl => plain l (Nat.lt_succ_of_lt hl))
      (Nat.le_of_succ_le enough)
    have portNow : (c.moved m k).isPort (c.source k) = true := by rw [moved_isPort, port k (Nat.lt_succ_self k)]
    have plainNow : (c.moved m k).isPort (c.target k) = false := by rw [moved_isPort, plain k (Nat.lt_succ_self k)]
    obtain ⟨used, recorded⟩ := moveByte_from_port portNow plainNow
    have answer : readByte (c.moved m k) (c.source k) = m.answers.getD k 0 := by
      rw [readByte_port portNow (answers.trans (List.drop_eq_getElem_cons enough)), List.getD_eq_getElem _ _ enough]
    rw [moved_succ, used, recorded, answers, log, answer, List.tail_drop, List.range_succ, List.map_append,
      List.append_assoc]
    exact ⟨rfl, rfl⟩

/-- What move k from a port reads is answer k. -/
theorem moved_source_port (port : ∀ l, l ≤ k → m.isPort (c.source l) = true)
    (plain : ∀ l, l < k → m.isPort (c.target l) = false) {v : Byte} (hv : m.answers[k]? = some v) :
    readByte (c.moved m k) (c.source k) = v := by
  obtain ⟨enough, rfl⟩ := List.getElem?_eq_some_iff.1 hv
  obtain ⟨answers, -⟩ := moved_from_ports (fun l hl => port l (Nat.le_of_lt hl)) plain (Nat.le_of_lt enough)
  have portNow : (c.moved m k).isPort (c.source k) = true := by rw [moved_isPort, port k (Nat.le_refl k)]
  exact readByte_port portNow (answers.trans (List.drop_eq_getElem_cons enough))

/-- Moves from plain memory to ports hand over the source bytes in order and change no byte (R79). -/
theorem moved_to_ports (plain : ∀ l, l < k → m.isPort (c.source l) = false)
    (port : ∀ l, l < k → m.isPort (c.target l) = true) :
    c.moved m k =
      { m with log := m.log ++ (List.range k).map fun l => .write (c.target l) (plainByte m (c.source l)) } := by
  induction k with
  | zero => simp
  | succ k ih =>
    have plainNow : (c.moved m k).isPort (c.source k) = false := by rw [moved_isPort, plain k (Nat.lt_succ_self k)]
    have portNow : (c.moved m k).isPort (c.target k) = true := by rw [moved_isPort, port k (Nat.lt_succ_self k)]
    rw [moved_succ, moveByte_to_port plainNow portNow,
      ih (fun l hl => plain l (Nat.lt_succ_of_lt hl)) fun l hl => port l (Nat.lt_succ_of_lt hl), List.range_succ,
      List.map_append, ← List.append_assoc]
    rfl

end

/-! ### The addresses of a transfer -/

theorem DmaChannel.source_inc {c : DmaChannel} (h : c.dcmd.getLsbD 31 = true) (k : Nat) :
    c.source k = c.dsadr + BitVec.ofNat 32 k := by rw [source, dcmdIncSrc, h, rangeAddr, if_pos rfl]

theorem DmaChannel.source_fixed {c : DmaChannel} (h : c.dcmd.getLsbD 31 = false) (k : Nat) : c.source k = c.dsadr := by
  rw [source, dcmdIncSrc, h, rangeAddr, if_neg Bool.false_ne_true]

theorem DmaChannel.target_inc {c : DmaChannel} (h : c.dcmd.getLsbD 30 = true) (k : Nat) :
    c.target k = c.dtadr + BitVec.ofNat 32 k := by rw [target, dcmdIncTrg, h, rangeAddr, if_pos rfl]

theorem DmaChannel.target_fixed {c : DmaChannel} (h : c.dcmd.getLsbD 30 = false) (k : Nat) : c.target k = c.dtadr := by
  rw [target, dcmdIncTrg, h, rangeAddr, if_neg Bool.false_ne_true]

/-- The addresses of an incrementing target range differ: LEN is below 2^13, so the range does not wrap onto itself. -/
theorem DmaChannel.target_ne {c : DmaChannel} (h : c.dcmd.getLsbD 30 = true) {k l : Nat} (kl : k < l) (hl : l < c.len) :
    c.target k ≠ c.target l := by
  have short : c.len < 2 ^ 13 := (dcmdLen c.dcmd).isLt
  rw [target_inc h, target_inc h, Ne, BitVec.add_right_inj, ← BitVec.toNat_inj, BitVec.toNat_ofNat, BitVec.toNat_ofNat]
  omega

/-! ### A completion -/

/-- A completion leaves the plain memory of its copy: the load after it only reads (R165). -/
theorem plainByte_dmaFire {s : State} {ch : Channel} (run : (s.chan ch).run = true) (a : Word) :
    plainByte (dmaFire ch s).mem a = plainByte ((s.chan ch).moved s.mem (s.chan ch).len) a := by
  rw [dmaFire_mem run, completedImage, copiedImage_eq_moved]
  split
  · rfl
  · rw [afterDescriptor, runImage_plainByte]

section
variable {s : State} {ch : Channel} {k : Nat}

/-- After a completion a plain target byte that no later move meets is what its move read. -/
theorem dmaFire_target (run : (s.chan ch).run = true) (hk : k < (s.chan ch).len)
    (plain : s.mem.isPort ((s.chan ch).target k) = false)
    (last : ∀ l, k < l → l < (s.chan ch).len → (s.chan ch).target k ≠ (s.chan ch).target l) :
    plainByte (dmaFire ch s).mem ((s.chan ch).target k) =
      readByte ((s.chan ch).moved s.mem k) ((s.chan ch).source k) := by
  rw [plainByte_dmaFire run, moved_target hk plain last]

/-- When besides no earlier move meets its plain source, it is the source byte from before the completion. -/
theorem dmaFire_target_of_source (run : (s.chan ch).run = true) (hk : k < (s.chan ch).len) {src trg : Word}
    (source : (s.chan ch).source k = src) (target : (s.chan ch).target k = trg) (plainSource : s.mem.isPort src = false)
    (plainTarget : s.mem.isPort trg = false)
    (last : ∀ l, k < l → l < (s.chan ch).len → (s.chan ch).target k ≠ (s.chan ch).target l)
    (untouched : ∀ l, l < k → src ≠ (s.chan ch).target l) :
    plainByte (dmaFire ch s).mem trg = plainByte s.mem src := by
  subst source target
  rw [dmaFire_target run hk plainTarget last, moved_source plainSource untouched]

end

/-- Settles O28: the images are those of `DmaChannel.moved`. -/
theorem dmaCopyIsTheForwardByteLoop : Obligations.DmaCopyIsTheForwardByteLoop := by
  intro s ch
  refine ⟨(s.chan ch).moved s.mem, rfl, rfl, rfl, fun k _ src trg hsrc htrg => ?_⟩
  have move : (s.chan ch).moved s.mem (k + 1) = moveByte ((s.chan ch).moved s.mem k) src trg := by
    rw [moved_succ, hsrc, htrg]
    rfl
  rw [move]
  exact ⟨rfl, fun plain => plainByte_moveByte (by rw [moved_isPort, plain]) src⟩

/-- Settles O29: no move to an incrementing target meets the target of another, nor, by disjointness, a source. -/
theorem dmaCopyMovesTheRange : Obligations.DmaCopyMovesTheRange := by
  intro s ch run
  refine ⟨fun incSrc incTrg plainSource plainTarget disjoint k hk => ?_, fun a outside => ?_⟩
  · refine dmaFire_target_of_source run hk (DmaChannel.source_inc incSrc k) (DmaChannel.target_inc incTrg k)
      (plainSource k hk) (plainTarget k hk) (fun l => DmaChannel.target_ne incTrg) fun l lk => ?_
    rw [DmaChannel.target_inc incTrg]
    exact disjoint k l hk (Nat.lt_trans lk hk)
  · rw [plainByte_dmaFire run]
    exact moved_outside outside

/-- Settles O30: the byte a target address ends with was moved there last; its source is met by no target, or, with both
addresses fixed and equal, every move puts back the byte it has read. -/
theorem dmaFixedAddressModes : Obligations.DmaFixedAddressModes := by
  intro s ch len run hlen
  obtain rfl : len = (s.chan ch).len := hlen
  have lastByte (nonempty : 1 ≤ (s.chan ch).len) : (s.chan ch).len - 1 < (s.chan ch).len :=
    Nat.sub_lt nonempty Nat.one_pos
  have noneAfter (l : Nat) (kl : (s.chan ch).len - 1 < l) (hl : l < (s.chan ch).len) :
      (s.chan ch).target ((s.chan ch).len - 1) ≠ (s.chan ch).target l := absurd hl (by omega)
  refine ⟨fun fixSrc incTrg plainSource plainTarget apart k hk => ?_,
    fun incSrc fixTrg plainSource plainTarget apart nonempty => ?_,
    fun fixSrc fixTrg plainSource plainTarget nonempty => ?_⟩
  · refine dmaFire_target_of_source run hk (DmaChannel.source_fixed fixSrc k) (DmaChannel.target_inc incTrg k)
      plainSource (plainTarget k hk) (fun l => DmaChannel.target_ne incTrg) fun l lk => ?_
    rw [DmaChannel.target_inc incTrg]
    exact apart l (Nat.lt_trans lk hk)
  · have hlast := lastByte nonempty
    refine dmaFire_target_of_source run hlast (DmaChannel.source_inc incSrc _) (DmaChannel.target_fixed fixTrg _)
      (plainSource _ hlast) plainTarget noneAfter fun l _ => ?_
    rw [DmaChannel.target_fixed fixTrg]
    exact (apart _ hlast).symm
  · have source := DmaChannel.source_fixed fixSrc
    have target := DmaChannel.target_fixed fixTrg
    by_cases same : (s.chan ch).dtadr = (s.chan ch).dsadr
    · rw [plainByte_dmaFire run, same]
      exact moved_onto_itself plainSource (fun l _ => source l) fun l _ => (target l).trans same
    · refine dmaFire_target_of_source run (lastByte nonempty) (source _) (target _) plainSource plainTarget noneAfter
        fun l _ => ?_
      rw [target]
      exact Ne.symm same

/-- Settles O60: the byte a target address ends with was moved there last, and its move read the next answer; with ports
as targets the record is that of `moved_to_ports`. -/
theorem portsAreReadAndWrittenInOrder : Obligations.PortsAreReadAndWrittenInOrder := by
  intro s ch len src trg run hlen hsrc htrg
  obtain rfl : len = (s.chan ch).len := hlen
  obtain rfl : src = (s.chan ch).source := hsrc
  obtain rfl : trg = (s.chan ch).target := htrg
  refine ⟨fun port plain incTrg enough => ⟨fun k v hk hv => ?_, moved_from_ports port plain enough⟩, moved_to_ports⟩
  rw [dmaFire_target run hk (plain k hk) fun l kl hl => DmaChannel.target_ne incTrg kl hl]
  exact moved_source_port (fun l hl => port l (Nat.lt_of_le_of_lt hl hk)) (fun l hl => plain l (Nat.lt_trans hl hk)) hv

end Sys2Proof.Machine
end

section
/-! ## The completion of a channel, and channels with no event

A completion acts on its own channel and on memory (41_dma.md R165). A channel with RUN or LCDEN 0 is in no tick's due set,
so no tick touches it (R167, R168; 44_lcd.md R263, R276). -/

namespace Sys2Proof.Machine

/-! ### A completion -/

/-- A channel after a completion that ends its chain. -/
theorem completedChannel_of_stop {c : DmaChannel} (m : Image) (stop : dcmdStop c.dcmd = true) :
    completedChannel m c = { c with endFlag := true, run := false } := by
  rw [completedChannel, if_pos stop]

/-- A channel after a completion that goes on to the next descriptor. -/
theorem completedChannel_of_not_stop {c : DmaChannel} (m : Image) (goesOn : dcmdStop c.dcmd = false) :
    completedChannel m c = loadedChannel m { c with endFlag := true } := by
  rw [completedChannel, goesOn, if_neg Bool.false_ne_true]

/-- A completion leaves the stored bits, as a load does. -/
theorem completedChannel_stored (m : Image) (c : DmaChannel) :
    (completedChannel m c).en = c.en ∧ (completedChannel m c).pause = c.pause ∧ (completedChannel m c).req = c.req ∧
      (completedChannel m c).busErr = c.busErr := by
  unfold completedChannel
  split
  · exact ⟨rfl, rfl, rfl, rfl⟩
  · exact ⟨rfl, rfl, rfl, rfl⟩

/-- The raw-pending bits after a completion: ENDIRQEN of the completed command decides on the channel's own (R165). -/
theorem dmaFire_irqp_bit {s : State} {ch : Channel} (run : (s.chan ch).run = true) (c : Channel) :
    (dmaFire ch s).dma.irqp.getLsbD c =
      (s.dma.irqp.getLsbD c || (decide (c = ch) && dcmdEndIrqEn (s.chan ch).dcmd)) := by
  rw [dmaFire_irqp run]
  cases dcmdEndIrqEn (s.chan ch).dcmd
  · rw [if_neg Bool.false_ne_true, Bool.and_false, Bool.or_false]
  · rw [if_pos rfl, setBit_bit, decide_eq_true c.isLt, Bool.true_and, Bool.and_true]
    simp only [Fin.ext_iff]

/-- Settles O27: the channel is the completed one, and by cases on STOP it keeps or loads its working registers. -/
theorem dmaCompletionEffect : Obligations.DmaCompletionEffect := by
  intro s ch
  refine ⟨dmaFire_idle, fun run => ?_⟩
  obtain ⟨en, pause, req, busErr⟩ := completedChannel_stored (copiedImage (s.chan ch) s.mem) (s.chan ch)
  rw [dmaFire_chan_same run]
  refine ⟨completedChannel_endFlag _ _, completedChannel_run _ run, dmaFire_irqp_bit run, dmaFire_mem run, fun stop => ?_,
    fun goesOn => ?_, en, pause, req, busErr, fun c => dmaFire_chan_other s, dmaFire_timer ch s, dmaFire_lcd ch s,
    dmaFire_trace ch s, dmaFire_frame ch s⟩
  · rw [completedChannel_of_stop _ stop]
    exact ⟨rfl, rfl, rfl, rfl, rfl⟩
  · rw [completedChannel_of_not_stop _ goesOn]
    exact loadedChannel_loaded _ { s.chan ch with endFlag := true }

/-! ### Channels with no event -/

/-- A value of a view that every tick keeps is kept by any number of ticks. -/
theorem ticks_keep {α : Type} {v : State → α} {x : α} (keep : ∀ s, v s = x → v (tickStep s) = x) {s : State}
    (h : v s = x) (k : Nat) : v (ticks k s) = x := by
  induction k with
  | zero => exact h
  | succ k ih => exact keep _ ih

theorem tickStep_dmaView_of_idle {s : State} {ch : Channel} (idle : (s.chan ch).run = false) :
    dmaView ch (tickStep s) = dmaView ch s := by
  have notDue : dmaDue (advanceTime s) ch = false := by rw [dmaDue_advanceTime, idle, Bool.false_and]
  rw [tickStep_dmaView_of_not_due notDue, countDownDma, idle, if_neg Bool.false_ne_true, dmaView]

/-- An idle DMA channel and its raw-pending bit stay through any number of ticks (R167, R168). -/
theorem ticks_dmaView_of_idle {s : State} {ch : Channel} (idle : (s.chan ch).run = false) (k : Nat) :
    dmaView ch (ticks k s) = dmaView ch s := by
  refine ticks_keep (fun t same => ?_) rfl k
  have stillIdle : (t.chan ch).run = false := (congrArg (·.1.run) same).trans idle
  rw [tickStep_dmaView_of_idle stillIdle, same]

theorem tickStep_lcdFlagsView_of_disabled {s : State} {n : LcdCh} (disabled : s.lcd.lcden.getLsbD n = false) :
    lcdFlagsView n (tickStep s) = lcdFlagsView n s := by
  have notFired : .lcd n ∉ firingOrder s := by rw [lcd_mem_firingOrder_iff, disabled]; simp
  calc lcdFlagsView n (tickStep s)
      = lcdFlagsView n (fireAll (firingOrder s) (advanceTime s)) := rfl
    _ = lcdFlagsView n (advanceTime s) := fireAll_without (lcdFlagsView_only n) notFired _
    _ = lcdFlagsView n s := by
      rw [lcdFlagsView, advanceTime_lcdView, disabled, advanceTime_bs]
      rfl

/-- A disabled LCD channel and its flags stay through any number of ticks (44_lcd.md R263, R276). -/
theorem ticks_lcdFlagsView_of_disabled {s : State} {n : LcdCh} (disabled : s.lcd.lcden.getLsbD n = false) (k : Nat) :
    lcdFlagsView n (ticks k s) = lcdFlagsView n s := by
  refine ticks_keep (fun t same => ?_) rfl k
  have stillDisabled : t.lcd.lcden.getLsbD n = false := (congrArg (·.1.enabled) same).trans disabled
  rw [tickStep_lcdFlagsView_of_disabled stillDisabled, same]

theorem ticks_idle {s : State} (idle : ∀ ch : Channel, (s.chan ch).run = false) (k : Nat) (ch : Channel) :
    ((ticks k s).chan ch).run = false :=
  (congrArg (·.1.run) (ticks_dmaView_of_idle (idle ch) k)).trans (idle ch)

theorem ticks_disabled {s : State} (disabled : ∀ n : LcdCh, s.lcd.lcden.getLsbD n = false) (k : Nat) (n : LcdCh) :
    (ticks k s).lcd.lcden.getLsbD n = false :=
  (congrArg (·.1.enabled) (ticks_lcdFlagsView_of_disabled (disabled n) k)).trans (disabled n)

theorem dma_not_due_of_idle {s : State} (idle : ∀ ch : Channel, (s.chan ch).run = false) (ch : Channel) :
    .dma ch ∉ firingOrder s :=
  dma_not_mem_firingOrder (fun ch run => Bool.noConfusion ((idle ch).symm.trans run)) ch

theorem lcd_not_due_of_disabled {s : State} (disabled : ∀ n : LcdCh, s.lcd.lcden.getLsbD n = false) (n : LcdCh) :
    .lcd n ∉ firingOrder s :=
  lcd_not_mem_firingOrder (fun n enabled => Bool.noConfusion ((disabled n).symm.trans enabled)) n

/-- With no DMA channel running the ticks only read memory (20_memory.md R72). -/
theorem ticks_onlyRead_of_idle {s : State} (idle : ∀ ch : Channel, (s.chan ch).run = false) (k : Nat) :
    OnlyRead s.mem (ticks k s).mem := by
  induction k with
  | zero => exact .refl _
  | succ k ih =>
    refine ih.trans ?_
    rw [ticks, tickStep_mem]
    exact fireAll_onlyRead (dma_not_due_of_idle (ticks_idle idle k)) (advanceTime (ticks k s))

/-- With no LCD channel enabled either they leave it. -/
theorem ticks_mem_of_idle {s : State} (idle : ∀ ch : Channel, (s.chan ch).run = false)
    (disabled : ∀ n : LcdCh, s.lcd.lcden.getLsbD n = false) (k : Nat) : (ticks k s).mem = s.mem := by
  induction k with
  | zero => rfl
  | succ k ih =>
    rw [ticks, tickStep_mem, fireAll_mem (dma_not_due_of_idle (ticks_idle idle k))
      (lcd_not_due_of_disabled (ticks_disabled disabled k)), advanceTime_mem, ih]

/-- Settles O32: an idle channel is never due, so its view stays; memory is left by ticks without a channel's event. -/
theorem idleChannelsStayStill : Obligations.IdleChannelsStayStill := by
  intro s k
  refine ⟨fun ch idle => ?_, fun n disabled => ?_, fun idle => ticks_onlyRead_of_idle idle k, fun idle lcden => ?_⟩
  · exact Prod.mk.inj (ticks_dmaView_of_idle idle k)
  · obtain ⟨sameView, bs⟩ := Prod.mk.inj (ticks_lcdFlagsView_of_disabled disabled k)
    obtain ⟨chan, enabled, eof, -, -⟩ := LcdView.mk.inj sameView
    exact ⟨chan, enabled.trans disabled, eof, bs⟩
  · exact .of_eq (ticks_mem_of_idle idle (fun n => by rw [lcden]; exact BitVec.getLsbD_zero) k)

end Sys2Proof.Machine
end

section
/-! ## The register operations of the Timer/Match Unit

A read answers the register as it stands (42_timer.md R200 to R206). A write stores into its own register, and a write of a
match value or of the counter arms its slots as well (R201, R203, R211); without a lane nothing is stored or armed
(40_dispatcher.md R133). -/

namespace Sys2Proof.Machine

/-! ### The words of OSSR and OIER -/

/-- A register narrower than a word reads its own bits, and 0 above them (10_state.md R25). -/
theorem setWidth_word_bit {n : Nat} (v : BitVec n) (hn : n ≤ 32) (k : Nat) :
    (v.setWidth 32).getLsbD k = v.getLsbD k := by
  rw [BitVec.getLsbD_setWidth]
  by_cases hk : k < 32
  · rw [decide_eq_true hk, Bool.true_and]
  · rw [bit_high v k (by omega), Bool.and_false]

theorem ossrWord_bit (t : Timer) (k : Nat) : (ossrWord t).getLsbD k = t.ossr.getLsbD k :=
  setWidth_word_bit t.ossr (by decide) k

theorem oierWord_bit (t : Timer) (k : Nat) : (oierWord t).getLsbD k = t.oier.getLsbD k :=
  setWidth_word_bit t.oier (by decide) k

/-- Settles O19: each read answers its register's word, bit by bit `ossrWord_bit` and `oierWord_bit`. -/
theorem timerReadsReturnTheRegisters : Obligations.TimerReadsReturnTheRegisters := by
  intro s i be
  exact ⟨rfl, rfl, ⟨ossrWord s.timer, rfl, ossrWord_bit s.timer⟩, oierWord s.timer, rfl, oierWord_bit s.timer⟩

/-! ### A write of a timer register -/

/-- A write whose effect on the timer unit is g completes and touches nothing else. The unit after it is h of the one before
it, where h does nothing without a lane and what g does with one. -/
theorem writeAccess_timer (g h : Timer → Timer) {be : Lanes} {s : State} (noLane : be = 0 → h s.timer = s.timer)
    (lane : be ≠ 0 → h s.timer = g s.timer) :
    ∃ t, writeAccess be (fun s => s.setTimer (g s.timer)) s = .next t ∧ t.timer = h s.timer ∧ OnlyTimer be s t :=
  ⟨_, rfl,
    afterWrite_cases (P := fun t => t.timer = h s.timer) (fun hb => (noLane hb).symm) fun hb => (lane hb).symm,
    afterWrite_onlyTimer be (fun s => g s.timer) s⟩

/-! ### OSMR and OSCR -/

/-- `TmrArm` of slot i, slot by slot (R211). -/
theorem armSlot_bit (i j : Slot) (t : Timer) :
    (armSlot i t).armed.getLsbD j = (t.armed.getLsbD j || decide (j = i)) := by
  rw [armSlot, setBit_bit, decide_eq_true j.isLt, Bool.true_and]
  simp only [Fin.ext_iff]

/-- `TmrArm` of every slot leaves no slot unarmed (R203). -/
theorem armAllSlots_bit (j : Slot) (t : Timer) : (armAllSlots t).armed.getLsbD j = true := by
  have everySlot : ∀ j : Slot, j = 0 ∨ j = 1 ∨ j = 2 ∨ j = 3 := by decide
  simp only [armAllSlots, armSlot_bit, Bool.or_eq_true, decide_eq_true_eq]
  have := everySlot j
  tauto

/-- The timer unit after `WR.OSMR`: the match value is merged, and with a lane its slot is armed (R201). -/
def osmrWritten (i : Slot) (be : Lanes) (d : Word) (t : Timer) : Timer :=
  { t with
    osmr := t.osmr.set i (mergeAll t.osmr[i] be d)
    armed := if be = 0 then t.armed else (armSlot i t).armed }

theorem exec_wrOsmr (i : Slot) (be : Lanes) (d : Word) (s : State) :
    ∃ t, exec (.wrOsmr i be d) s = .next t ∧ t.timer = osmrWritten i be d s.timer ∧ OnlyTimer be s t := by
  refine writeAccess_timer (fun t => armSlot i { t with osmr := t.osmr.set i (mergeAll t.osmr[i] be d) })
    (osmrWritten i be d) (fun noLane => ?_) fun lane => ?_
  · subst noLane
    simp [osmrWritten]
  · rw [osmrWritten, if_neg lane]
    rfl

theorem osmrWritten_armed (i j : Slot) (be : Lanes) (d : Word) (t : Timer) :
    (osmrWritten i be d t).armed.getLsbD j = (t.armed.getLsbD j || (decide (j = i) && decide (be ≠ 0))) := by
  by_cases noLane : be = 0
  · simp [osmrWritten, noLane]
  · rw [osmrWritten, if_neg noLane, armSlot_bit, decide_eq_true noLane, Bool.and_true]

theorem osmrWritten_osmr_same (i : Slot) (be : Lanes) (d : Word) (t : Timer) :
    (osmrWritten i be d t).osmr[i] = mergeAll t.osmr[i] be d := Vector.getElem_set_self i.isLt

theorem osmrWritten_osmr_other {i j : Slot} (other : j ≠ i) (be : Lanes) (d : Word) (t : Timer) :
    (osmrWritten i be d t).osmr[j] = t.osmr[j] :=
  Vector.getElem_set_ne i.isLt j.isLt fun same => other (Fin.ext same.symm)

/-- Settles O33: the timer unit after the write is `osmrWritten`. -/
theorem osmrWriteStoresAndArms : Obligations.OsmrWriteStoresAndArms := by
  intro i be d s
  obtain ⟨t, done, timer, only⟩ := exec_wrOsmr i be d s
  refine ⟨t, done, ?_⟩
  rw [timer, osmrWritten_osmr_same]
  exact ⟨mergeAll_merged _ _ _, fun j other => osmrWritten_osmr_other other _ _ _, fun j => osmrWritten_armed _ _ _ _ _,
    rfl, rfl, rfl, only⟩

/-- The timer unit after `WR.OSCR`: the counter is merged, and with a lane every slot is armed (R203). -/
def oscrWritten (be : Lanes) (d : Word) (t : Timer) : Timer :=
  { t with
    oscr := mergeAll t.oscr be d
    armed := if be = 0 then t.armed else (armAllSlots t).armed }

theorem exec_wrOscr (be : Lanes) (d : Word) (s : State) :
    ∃ t, exec (.wrOscr be d) s = .next t ∧ t.timer = oscrWritten be d s.timer ∧ OnlyTimer be s t := by
  refine writeAccess_timer (fun t => armAllSlots { t with oscr := mergeAll t.oscr be d }) (oscrWritten be d)
    (fun noLane => ?_) fun lane => ?_
  · subst noLane
    simp [oscrWritten]
  · rw [oscrWritten, if_neg lane]
    rfl

theorem oscrWritten_armed (j : Slot) (be : Lanes) (d : Word) (t : Timer) :
    (oscrWritten be d t).armed.getLsbD j = (t.armed.getLsbD j || decide (be ≠ 0)) := by
  by_cases noLane : be = 0
  · simp [oscrWritten, noLane]
  · rw [oscrWritten, if_neg noLane, armAllSlots_bit, decide_eq_true noLane, Bool.or_true]

/-- Settles O34: the timer unit after the write is `oscrWritten`. -/
theorem oscrWriteStoresAndArmsAllSlots : Obligations.OscrWriteStoresAndArmsAllSlots := by
  intro be d s
  obtain ⟨t, done, timer, only⟩ := exec_wrOscr be d s
  refine ⟨t, done, ?_⟩
  rw [timer]
  exact ⟨mergeAll_merged _ _ _, fun j => oscrWritten_armed _ _ _ _, rfl, rfl, rfl, only⟩

/-! ### OSSR and OIER -/

/-- The bits of the slots lie in lane 0. -/
theorem laneMask_slot (be : Lanes) (i : Slot) : (laneMask be).getLsbD i = be.getLsbD 0 := by
  rw [laneMask_bit be i (by omega), laneOn, Nat.div_eq_of_lt (by omega)]

theorem wSlots_bit : ∀ i : Slot, wSlots.getLsbD i = true := by decide

/-- The timer unit after `WR.OSSR`, with a lane or without one (R205). -/
def ossrWritten (be : Lanes) (d : Word) (t : Timer) : Timer :=
  { t with ossr := (w1c (ossrWord t) d (laneMask be) wSlots).setWidth 4 }

theorem ossrWritten_ossr (be : Lanes) (d : Word) (t : Timer) (i : Slot) :
    (ossrWritten be d t).ossr.getLsbD i = (t.ossr.getLsbD i && !(be.getLsbD 0 && d.getLsbD i)) := by
  rw [ossrWritten, BitVec.getLsbD_setWidth, decide_eq_true i.isLt, Bool.true_and, w1c_bit _ _ _ _ _ (by omega),
    laneMask_slot, wSlots_bit, ossrWord_bit, Bool.and_true, Bool.and_comm (d.getLsbD _)]

theorem ossrWritten_noLane (d : Word) (t : Timer) : ossrWritten 0 d t = t := by
  have held : (ossrWord t).setWidth 4 = t.ossr := BitVec.setWidth_setWidth_of_le _ (by decide)
  simp [ossrWritten, held]

/-- The timer unit after `WR.OIER`, with a lane or without one (R207). -/
def oierWritten (be : Lanes) (d : Word) (t : Timer) : Timer :=
  { t with oier := (merge (oierWord t) d (laneMask be) wSlots).setWidth 4 }

theorem oierWritten_oier (be : Lanes) (d : Word) (t : Timer) (i : Slot) :
    (oierWritten be d t).oier.getLsbD i = if be.getLsbD 0 then d.getLsbD i else t.oier.getLsbD i := by
  rw [oierWritten, BitVec.getLsbD_setWidth, decide_eq_true i.isLt, Bool.true_and, merge_bit _ _ _ _ _ (by omega),
    laneMask_slot, wSlots_bit, oierWord_bit, Bool.and_true]

theorem oierWritten_noLane (d : Word) (t : Timer) : oierWritten 0 d t = t := by
  have held : (oierWord t).setWidth 4 = t.oier := BitVec.setWidth_setWidth_of_le _ (by decide)
  simp [oierWritten, held]

theorem exec_wrOssr (be : Lanes) (d : Word) (s : State) :
    ∃ t, exec (.wrOssr be d) s = .next t ∧ t.timer = ossrWritten be d s.timer ∧ OnlyTimer be s t :=
  writeAccess_timer (ossrWritten be d) (ossrWritten be d) (fun noLane => noLane ▸ ossrWritten_noLane d s.timer)
    fun _ => rfl

theorem exec_wrOier (be : Lanes) (d : Word) (s : State) :
    ∃ t, exec (.wrOier be d) s = .next t ∧ t.timer = oierWritten be d s.timer ∧ OnlyTimer be s t :=
  writeAccess_timer (oierWritten be d) (oierWritten be d) (fun noLane => noLane ▸ oierWritten_noLane d s.timer)
    fun _ => rfl

/-- Settles O35: the timer units after the writes are `ossrWritten` and `oierWritten`, each with one register replaced. -/
theorem ossrWriteClearsAndOierWriteStores : Obligations.OssrWriteClearsAndOierWriteStores := by
  intro be d s
  obtain ⟨t, done, timer, only⟩ := exec_wrOssr be d s
  obtain ⟨u, done', timer', only'⟩ := exec_wrOier be d s
  refine ⟨⟨t, done, ?_⟩, u, done', ?_⟩
  · rw [timer]
    exact ⟨ossrWritten_ossr be d s.timer, rfl, only⟩
  · rw [timer']
    exact ⟨oierWritten_oier be d s.timer, rfl, only'⟩

end Sys2Proof.Machine
end

section
/-! ## A match slot through ticks

In a tick the counter moves first, and then exactly the armed slots whose match value it has reached fire (42_timer.md R210,
R212; 40_dispatcher.md R138). So an armed slot fires in the tick whose count is its match value, and an unarmed one never
(R213), and its source and the normal line follow in the same tick (R215, R217). -/

namespace Sys2Proof.Machine

/-! ### One tick -/

theorem tickStep_timer (s : State) : (tickStep s).timer = (fireAll (firingOrder s) (advanceTime s)).timer := by
  rw [tickStep, intcUpdate_timer, State.answer_timer, State.draw_timer]

theorem tickStep_oscr (s : State) : (tickStep s).timer.oscr = s.timer.oscr + 1 := by
  rw [tickStep_timer, fireAll_keeps (·.timer.oscr) _ _ fun e _ u => (fireEvent_timer u e).2.1, advanceTime_timer,
    countTick]

theorem tickStep_osmr (s : State) : (tickStep s).timer.osmr = s.timer.osmr := by
  rw [tickStep_timer, fireAll_keeps (·.timer.osmr) _ _ fun e _ u => (fireEvent_timer u e).1, advanceTime_timer,
    countTick]

theorem tickStep_oier (s : State) : (tickStep s).timer.oier = s.timer.oier := by
  rw [tickStep_timer, fireAll_keeps (·.timer.oier) _ _ fun e _ u => (fireEvent_timer u e).2.2, advanceTime_timer,
    countTick]

/-- Slot i fires in this tick: it is armed and the counter reaches its match value (R138, R216). -/
def Matches (i : Slot) (s : State) : Prop := s.timer.armed.getLsbD i = true ∧ s.timer.oscr + 1 = s.timer.osmr[i]

theorem tmr_mem_firingOrder (s : State) (i : Slot) : .tmr i ∈ firingOrder s ↔ Matches i s := by
  rw [mem_firingOrder, mem_dueEvents]
  simp only [slotDue, advanceTime_timer, countTick, Bool.and_eq_true, beq_iff_eq, Matches]

theorem tickStep_slotView (i : Slot) (s : State) :
    slotView i (tickStep s) = slotView i (fireAll (firingOrder s) (advanceTime s)) := rfl

/-- A match latches the status and disarms the slot (R212). -/
theorem tickStep_slotView_of_match {s : State} {i : Slot} (h : Matches i s) :
    slotView i (tickStep s) = (true, false) := by
  obtain ⟨u, -, fired⟩ :=
    fireAll_with (slotView_only i) (firingOrder_nodup s) ((tmr_mem_firingOrder s i).2 h) (advanceTime s)
  rw [tickStep_slotView, fired, slotView_fire]

/-- Without a match the slot stays. -/
theorem tickStep_slotView_of_no_match {s : State} {i : Slot} (h : ¬Matches i s) :
    slotView i (tickStep s) = slotView i s := by
  rw [tickStep_slotView, fireAll_without (slotView_only i) (mt (tmr_mem_firingOrder s i).1 h)]
  rfl

/-- Settles O36: by cases on whether the slot is armed and reached. -/
theorem tickCountsAndFiresMatchingSlots : Obligations.TickCountsAndFiresMatchingSlots := by
  intro s
  refine ⟨tickStep_oscr s, tickStep_osmr s, tickStep_oier s, fun i => ?_⟩
  by_cases h : Matches i s
  · obtain ⟨ossr, armed⟩ := Prod.mk.inj (tickStep_slotView_of_match h)
    obtain ⟨wasArmed, reached⟩ := h
    rw [ossr, armed, wasArmed, decide_eq_true reached]
    simp
  · obtain ⟨ossr, armed⟩ := Prod.mk.inj (tickStep_slotView_of_no_match h)
    rw [ossr, armed]
    cases wasArmed : s.timer.armed.getLsbD i
    · simp
    · have notReached : s.timer.oscr + 1 ≠ s.timer.osmr[i] := fun reached => h ⟨wasArmed, reached⟩
      simp only [decide_eq_false notReached, Bool.and_false, Bool.or_false, Bool.not_false, Bool.and_self, and_self]

/-! ### Runs of ticks -/

theorem ticks_oscr (k : Nat) (s : State) : (ticks k s).timer.oscr = s.timer.oscr + BitVec.ofNat 32 k := by
  induction k with
  | zero => exact (BitVec.add_zero _).symm
  | succ k ih =>
    rw [ticks, tickStep_oscr, ih, BitVec.add_assoc]
    exact congrArg (s.timer.oscr + ·) (BitVec.ofNat_add k 1).symm

theorem ticks_osmr (k : Nat) (s : State) : (ticks k s).timer.osmr = s.timer.osmr :=
  ticks_keep (v := (·.timer.osmr)) (fun t same => (tickStep_osmr t).trans same) rfl k

theorem ticks_oier (k : Nat) (s : State) : (ticks k s).timer.oier = s.timer.oier :=
  ticks_keep (v := (·.timer.oier)) (fun t same => (tickStep_oier t).trans same) rfl k

theorem ticks_icmr (k : Nat) (s : State) : (ticks k s).intc.icmr = s.intc.icmr :=
  ticks_keep (v := (·.intc.icmr)) (fun t same => (tickStep_icmr t).trans same) rfl k

theorem ticks_iclr (k : Nat) (s : State) : (ticks k s).intc.iclr = s.intc.iclr :=
  ticks_keep (v := (·.intc.iclr)) (fun t same => (tickStep_iclr t).trans same) rfl k

/-- In tick k + 1 of a run slot i fires exactly when it is still armed and k + 1 counts reach its match value. -/
theorem matches_ticks_iff (k : Nat) (s : State) (i : Slot) :
    Matches i (ticks k s) ↔
      (ticks k s).timer.armed.getLsbD i = true ∧ s.timer.oscr + BitVec.ofNat 32 (k + 1) = s.timer.osmr[i] := by
  rw [Matches, ticks_osmr, ← tickStep_oscr, ← ticks, ticks_oscr]

/-- An unarmed slot stays as it is: it never matches (R213). -/
theorem ticks_slotView_of_unarmed {s : State} {i : Slot} (unarmed : s.timer.armed.getLsbD i = false) (k : Nat) :
    slotView i (ticks k s) = slotView i s := by
  refine ticks_keep (fun t same => ?_) rfl k
  obtain ⟨-, armed⟩ := Prod.mk.inj same
  have noMatch : ¬Matches i t := fun ⟨isArmed, _⟩ => Bool.noConfusion ((armed.trans unarmed).symm.trans isArmed)
  rw [tickStep_slotView_of_no_match noMatch, same]

/-! ### The tick of a match -/

/-- The number of ticks after which the counter c first equals the match value m: a whole turn when it equals it now
(R213). -/
def ticksToMatch (m c : Word) : Nat := if m = c then 2 ^ 32 else (m - c).toNat

theorem ticksToMatch_pos (m c : Word) : 0 < ticksToMatch m c := by
  unfold ticksToMatch
  split
  · decide
  · bv_omega

/-- Of the counts up to that number exactly the last one is the match value. -/
theorem count_eq_match_iff {m c : Word} {k : Nat} (pos : 0 < k) (le : k ≤ ticksToMatch m c) :
    c + BitVec.ofNat 32 k = m ↔ k = ticksToMatch m c := by
  unfold ticksToMatch at le ⊢
  split at le
  · next same =>
    rw [if_pos same]
    bv_omega
  · next differ =>
    rw [if_neg differ]
    bv_omega

/-- Before the tick of its match value a slot stays as it is (R213). -/
theorem ticks_slotView_before_match {s : State} {i : Slot} {k : Nat}
    (early : k < ticksToMatch s.timer.osmr[i] s.timer.oscr) : slotView i (ticks k s) = slotView i s := by
  induction k with
  | zero => rfl
  | succ k ih =>
    have notYet : ¬Matches i (ticks k s) := by
      rw [matches_ticks_iff]
      rintro ⟨-, reached⟩
      exact Nat.ne_of_lt early ((count_eq_match_iff k.succ_pos (Nat.le_of_lt early)).1 reached)
    rw [ticks, tickStep_slotView_of_no_match notYet, ih (Nat.lt_of_succ_lt early)]

/-- In that tick it fires, if it was armed (R213). -/
theorem ticks_slotView_at_match {s : State} {i : Slot} (armed : s.timer.armed.getLsbD i = true) :
    slotView i (ticks (ticksToMatch s.timer.osmr[i] s.timer.oscr) s) = (true, false) := by
  obtain ⟨k, last⟩ := Nat.exists_eq_succ_of_ne_zero (ticksToMatch_pos s.timer.osmr[i] s.timer.oscr).ne'
  obtain ⟨-, stillArmed⟩ := Prod.mk.inj (ticks_slotView_before_match (s := s) (i := i) (k := k) (by omega))
  rw [last, ticks]
  refine tickStep_slotView_of_match ((matches_ticks_iff k s i).2 ⟨stillArmed.trans armed, ?_⟩)
  exact (count_eq_match_iff k.succ_pos last.ge).2 last.symm

/-- Settles O37: an armed slot stays up to the tick of its match and fires in it; an unarmed one stays. -/
theorem slotFiresExactlyOnTimeAndOnce : Obligations.SlotFiresExactlyOnTimeAndOnce := by
  refine fun s i => ⟨fun armed d deadline => ?_, fun unarmed k => ?_⟩
  · rw [← ticksToMatch] at deadline
    subst deadline
    refine ⟨fun k early => ?_, Prod.mk.inj (ticks_slotView_at_match armed)⟩
    obtain ⟨ossr, stillArmed⟩ := Prod.mk.inj (ticks_slotView_before_match early)
    exact ⟨ossr, stillArmed.trans armed⟩
  · obtain ⟨ossr, armed⟩ := Prod.mk.inj (ticks_slotView_of_unarmed unarmed k)
    exact ⟨ossr, armed.trans unarmed⟩

/-! ### The source and the line of a match -/

/-- Timer source 26 + i is the status of slot i, gated by its enable (R215, 43_intc.md R243). -/
theorem sourceHigh_timer (s : State) (i : Slot) :
    SourceHigh s (26 + i.val) ↔ s.timer.ossr.getLsbD i = true ∧ s.timer.oier.getLsbD i = true :=
  match i with
  | 0 | 1 | 2 | 3 => Iff.rfl

/-- After any number of ticks the interrupt controller is settled, if it is before the first. -/
theorem ticks_settled {s : State} {k : Nat} (h : k = 0 → Settled s) : Settled (ticks k s) :=
  match k with
  | 0 => h rfl
  | k + 1 => tickStep_settled (ticks k s)

/-- While the raw bit k is clear, the normal line is up only for another source (43_intc.md R235). -/
theorem Settled.irq_other {s : State} (settled : Settled s) {k : Nat} (clear : s.intc.icpr.getLsbD k = false)
    (up : s.intc.irqLine = true) :
    ∃ j, j ≠ k ∧ s.intc.icpr.getLsbD j = true ∧ s.intc.icmr.getLsbD j = true ∧ s.intc.iclr.getLsbD j = false := by
  obtain ⟨j, pending, routed⟩ := settled.irq.1 up
  refine ⟨j, ?_, pending, routed⟩
  rintro rfl
  exact Bool.noConfusion (clear.symm.trans pending)

/-- Settles O38: the raw bit is the slot's status, which `ticks_slotView_before_match` and `ticks_slotView_at_match` give, and
the line is the one of a settled controller. -/
theorem lineRisesExactlyAtTheMatch : Obligations.LineRisesExactlyAtTheMatch := by
  intro s i d armed clear enabled unmasked routed deadline
  rw [← ticksToMatch] at deadline
  subst deadline
  refine ⟨fun k early settledNow => ?_, ?_⟩
  · have settled : Settled (ticks k s) := ticks_settled settledNow
    obtain ⟨ossr, -⟩ := Prod.mk.inj (ticks_slotView_before_match early)
    have low : (ticks k s).intc.icpr.getLsbD (26 + i.val) = false := by
      rw [Bool.eq_false_iff, ne_eq, settled.raw, sourceHigh_timer, ossr, clear]
      simp
    exact ⟨low, settled.irq_other low⟩
  · have settled := ticks_settled (s := s) (k := ticksToMatch s.timer.osmr[i] s.timer.oscr)
      fun now => absurd now (ticksToMatch_pos _ _).ne'
    obtain ⟨ossr, -⟩ := Prod.mk.inj (ticks_slotView_at_match armed)
    have high := (settled.raw (26 + i.val)).2 ((sourceHigh_timer _ i).2 ⟨ossr, by rw [ticks_oier, enabled]⟩)
    exact ⟨high, settled.irq.2 ⟨26 + i.val, high, by rw [ticks_icmr, unmasked], by rw [ticks_iclr, routed]⟩⟩

end Sys2Proof.Machine
end

section
/-! ## The Interrupt Controller

`IntcUpdate` takes ICPR from the sources and drives both lines from it (43_intc.md R234, R235). Every write with a lane, tick,
pin notification and reset ends with it (40_dispatcher.md R130, R140); a read of the controller answers a register or a view
of the pending word, and a write of the mask or the routing merges that register first (R230 to R241). -/

namespace Sys2Proof.Machine

/-! ### Settled lines -/

/-- The table of R243 with the lines of R245, read bit by bit, says what `IntcUpdate` leaves in whole words. -/
theorem settled_iff_linesSettled (s : State) : Settled s ↔ LinesSettled s := by
  refine ⟨fun settled => ?_, fun ⟨latched, driven⟩ => settled_of s latched driven⟩
  have latched : SourcesLatched s := BitVec.eq_of_getLsbD_eq fun k _ => by
    rw [Bool.eq_iff_iff, settled.raw, sources_iff]
  have recomputed : Settled (intcUpdate s) := intcUpdate_settled s
  have updated : intcUpdate s = s.setIntc (recompute s.intc) := by
    rw [intcUpdate, ← latched]
  rw [updated] at recomputed
  exact ⟨latched, Bool.eq_iff_iff.2 (settled.irq.trans recomputed.irq.symm),
    Bool.eq_iff_iff.2 (settled.fiq.trans recomputed.fiq.symm)⟩

/-- Settles O42: after `IntcUpdate` the lines are settled, so a second one finds them as they are. -/
theorem intcUpdateIsIdempotentAndTouchesOnlyThePendingWordAndLines :
    Obligations.IntcUpdateIsIdempotentAndTouchesOnlyThePendingWordAndLines := by
  intro s
  exact ⟨intcUpdate_of_latched _ (intcUpdate_latched s) (intcUpdate_driven s), sources s, _, _, rfl⟩

/-- A write with a lane enabled ends with `IntcUpdate` (R130). -/
theorem exec_write_settled {i : Instr} {s t : State} (write : i.isWrite = true) (lane : i.lanes ≠ 0)
    (done : exec i s = .next t) : Settled t := by
  obtain ⟨isRead, -⟩ | ⟨-, f, eq, -⟩ := readsOnly_or_writes i
  · rw [write] at isRead
    cases isRead
  · rw [eq] at done
    obtain ⟨noLane, -⟩ | ⟨-, rfl⟩ := writeAccess_spec done
    · exact absurd noLane lane
    · exact intcUpdate_settled _

/-- Settles O41: each of the named steps ends with `IntcUpdate`, and every step keeps settled lines. -/
theorem everyBlockStepSettlesTheLines : Obligations.EveryBlockStepSettlesTheLines := by
  intro s t x rest waiting stepped kind
  have applied := (step_of_inbox_cons waiting).symm.trans stepped
  obtain rfl | rfl | ⟨b, p, level, rfl⟩ | ⟨a, rfl, write, lane⟩ | settled := kind
  · obtain rfl := Host.Outcome.next.inj applied
    exact tickStep_settled _
  · obtain rfl := Host.Outcome.next.inj applied
    exact intcUpdate_settled _
  · obtain ⟨bank, high, rfl⟩ := pinOrRefuse_spec applied
    exact intcUpdate_settled _
  · obtain ⟨-, direction, lanes⟩ := everyAccessDecodesToAWellFormedInstruction a
    exact exec_write_settled (direction.trans write) (lanes ▸ lane) applied
  · exact (settled_iff_linesSettled t).2 ((step_keeps stepped).lines ((settled_iff_linesSettled s).1 settled))

/-! ### The registers and the views -/

theorem icipView_bit (i : Intc) {k : Nat} (hk : k < 32) :
    (icipView i).getLsbD k = (i.icpr.getLsbD k && i.icmr.getLsbD k && !i.iclr.getLsbD k) := by
  simp [icipView, hk]

theorem icfpView_bit (i : Intc) (k : Nat) :
    (icfpView i).getLsbD k = (i.icpr.getLsbD k && i.icmr.getLsbD k && i.iclr.getLsbD k) := by
  rw [icfpView, BitVec.getLsbD_and, BitVec.getLsbD_and]

/-- Settles O20: each read answers its register or its view, bit by bit `icipView_bit` and `icfpView_bit`. -/
theorem intcReadsReturnTheRegistersAndViews : Obligations.IntcReadsReturnTheRegistersAndViews := by
  intro s be
  exact ⟨⟨icipView s.intc, rfl, fun _ => icipView_bit s.intc⟩, rfl, rfl,
    ⟨icfpView s.intc, rfl, fun k _ => icfpView_bit s.intc k⟩, rfl⟩

/-- A write whose effect on the interrupt controller is g completes and touches nothing else. Its mask and routing are those
of g, where g does nothing without a lane. -/
theorem writeAccess_intc (g : Intc → Intc) {be : Lanes} {s : State} (noLane : be = 0 → g s.intc = s.intc) :
    ∃ t, writeAccess be (fun s => s.setIntc (g s.intc)) s = .next t ∧ t.intc.icmr = (g s.intc).icmr ∧
      t.intc.iclr = (g s.intc).iclr ∧ OnlyIntc be s t :=
  ⟨_, rfl,
    afterWrite_cases (P := fun t => t.intc.icmr = (g s.intc).icmr) (fun hb => by rw [noLane hb]; rfl) fun _ => rfl,
    afterWrite_cases (P := fun t => t.intc.iclr = (g s.intc).iclr) (fun hb => by rw [noLane hb]; rfl) fun _ => rfl,
    afterWrite_onlyIntc be (fun s => g s.intc) s⟩

theorem exec_wrIcmr (be : Lanes) (d : Word) (s : State) :
    ∃ t, exec (.wrIcmr be d) s = .next t ∧ t.intc.icmr = mergeAll s.intc.icmr be d ∧ t.intc.iclr = s.intc.iclr ∧
      OnlyIntc be s t :=
  writeAccess_intc (fun i => { i with icmr := mergeAll i.icmr be d }) fun noLane => by subst noLane; simp

theorem exec_wrIclr (be : Lanes) (d : Word) (s : State) :
    ∃ t, exec (.wrIclr be d) s = .next t ∧ t.intc.icmr = s.intc.icmr ∧ t.intc.iclr = mergeAll s.intc.iclr be d ∧
      OnlyIntc be s t :=
  writeAccess_intc (fun i => { i with iclr := mergeAll i.iclr be d }) fun noLane => by subst noLane; simp

/-- Settles O39: each write merges its own register, and `OnlyIntc` holds the settled lines and the frame. -/
theorem maskAndRoutingWritesStoreAndSettle : Obligations.MaskAndRoutingWritesStoreAndSettle := by
  intro be d s
  obtain ⟨t, done, icmr, iclr, only⟩ := exec_wrIcmr be d s
  obtain ⟨u, done', icmr', iclr', only'⟩ := exec_wrIclr be d s
  refine ⟨⟨t, done, ?_, iclr, only⟩, u, done', ?_, icmr', only'⟩
  · rw [icmr]
    exact mergeAll_merged _ _ _
  · rw [iclr']
    exact mergeAll_merged _ _ _

end Sys2Proof.Machine
end

section
/-! ## The register operations of the LCD Controller

A read answers the register as it stands (44_lcd.md R250 to R274). A write stores into its own register or clears flags
(R253 to R275); only a write of LCCR0 starts and stops channels (R251). Without a lane nothing is stored
(40_dispatcher.md R133). -/

namespace Sys2Proof.Machine

/-! ### The word of LCSR -/

theorem lcsrWord_eof (l : Lcd) (n : LcdCh) : (lcsrWord l).getLsbD n = l.eof.getLsbD n := by
  have low : n.val < 4 := by omega
  rw [lcsrWord_bit l n (by omega), decide_eq_true low, Bool.not_true, Bool.false_and, Bool.false_or]

theorem lcsrWord_bs (l : Lcd) (n : LcdCh) : (lcsrWord l).getLsbD (4 + n) = l.bs.getLsbD n := by
  have high : ¬4 + n.val < 4 := by omega
  rw [lcsrWord_bit l (4 + n) (by omega), decide_eq_false high, Nat.add_sub_cancel_left,
    bit_high l.eof (4 + n) (by omega), Bool.or_false, Bool.not_false, Bool.true_and]

/-- The bits of LCSR that no flag takes read 0 (10_state.md R25, R46). -/
theorem lcsrWord_reserved (l : Lcd) {k : Nat} (hk : k = 2 ∨ k = 3 ∨ 6 ≤ k) : (lcsrWord l).getLsbD k = false := by
  by_cases inWord : k < 32
  · have noBs : (!decide (k < 4) && l.bs.getLsbD (k - 4)) = false := by
      rcases Nat.lt_or_ge k 4 with low | high
      · rw [decide_eq_true low, Bool.not_true, Bool.false_and]
      · rw [bit_high l.bs _ (by omega), Bool.and_false]
    rw [lcsrWord_bit l k inWord, noBs, bit_high l.eof k (by omega), Bool.or_false]
  · exact bit_high _ _ inWord

/-- Settles O21: each read answers its register's word; the bits of LCSR are those of its flags. -/
theorem lcdReadsReturnTheRegisters : Obligations.LcdReadsReturnTheRegisters := by
  intro s n be
  exact ⟨⟨lccr0Word s.lcd, rfl, setWidth_word_bit s.lcd.lcden (by decide)⟩,
    ⟨lccr2Word s.lcd, rfl, setWidth_word_bit s.lcd.lpp (by decide)⟩,
    ⟨lccr3Word s.lcd, rfl, setWidth_word_bit s.lcd.pcd (by decide)⟩,
    ⟨lcsrWord s.lcd, rfl, lcsrWord_eof s.lcd 0, lcsrWord_eof s.lcd 1, lcsrWord_bs s.lcd 0, lcsrWord_bs s.lcd 1,
      fun _ => lcsrWord_reserved s.lcd⟩,
    rfl, rfl, rfl, rfl⟩

/-! ### A write of an LCD register -/

/-- The controller after a write whose effect does nothing without a lane. -/
theorem afterWrite_lcd {be : Lanes} {f : State → State} {s : State}
    (noLane : be = 0 → (f (s.answer none)).lcd = s.lcd) : (afterWrite be f s).lcd = (f (s.answer none)).lcd :=
  afterWrite_cases (P := fun t => t.lcd = (f (s.answer none)).lcd) (fun hb => (noLane hb).symm) fun _ => rfl

/-- A write whose effect on the LCD controller is g, which does nothing without a lane, completes, leaves the controller
g makes and touches nothing else. -/
theorem writeAccess_lcd (g : Lcd → Lcd) {be : Lanes} {s : State} (noLane : be = 0 → g s.lcd = s.lcd) :
    ∃ t, writeAccess be (fun s => s.setLcd (g s.lcd)) s = .next t ∧ t.lcd = g s.lcd ∧ OnlyLcd be s s.mem t :=
  ⟨_, rfl, afterWrite_lcd noLane, afterWrite_onlyLcd be _ (fun s => g s.lcd) s s.mem (fun _ => rfl) rfl⟩

/-! ### LCCR2 and LCCR3 -/

/-- A lane-masked write of a register narrower than a word, none of whose writable bits lie above it. -/
theorem merge_setWidth_merged {n : Nat} (v : BitVec n) (hn : n ≤ 32) (d w : Word) (be : Lanes)
    (within : ∀ k, n ≤ k → w.getLsbD k = false) :
    Merged (v.setWidth 32) (((merge (v.setWidth 32) d (laneMask be) w).setWidth n).setWidth 32) d w be := by
  intro k hk
  rw [setWidth_word_bit _ hn, BitVec.getLsbD_setWidth]
  rcases Nat.lt_or_ge k n with low | high
  · rw [decide_eq_true low, Bool.true_and]
    exact merge_merged _ _ _ _ k hk
  · rw [within k high, Bool.and_false, if_neg Bool.false_ne_true, setWidth_word_bit v hn, bit_high v k (by omega),
      decide_eq_false (by omega), Bool.false_and]

/-- Without a lane a register narrower than a word is kept. -/
theorem merge_setWidth_noLane {n : Nat} (v : BitVec n) (hn : n ≤ 32) (d w : Word) :
    (merge (v.setWidth 32) d (laneMask 0) w).setWidth n = v := by
  simp [BitVec.setWidth_setWidth_of_le _ hn]

/-- The writable bits of LCCR2 are those LPP has. -/
theorem wLpp_within (k : Nat) (hk : 10 ≤ k) : wLpp.getLsbD k = false := by
  have allOnes : wLpp = (BitVec.allOnes 10).setWidth 32 := by decide
  rw [allOnes, setWidth_word_bit _ (by decide), bit_high _ k (by omega)]

/-- The writable bits of LCCR3 are those PCD has. -/
theorem wPcd_within (k : Nat) (hk : 8 ≤ k) : wPcd.getLsbD k = false := by
  have allOnes : wPcd = (BitVec.allOnes 8).setWidth 32 := by decide
  rw [allOnes, setWidth_word_bit _ (by decide), bit_high _ k (by omega)]

theorem exec_wrLccr2 (be : Lanes) (d : Word) (s : State) :
    ∃ t, exec (.wrLccr2 be d) s = .next t ∧
      t.lcd = { s.lcd with lpp := (merge (lccr2Word s.lcd) d (laneMask be) wLpp).setWidth 10 } ∧ OnlyLcd be s s.mem t :=
  writeAccess_lcd (fun l => { l with lpp := (merge (lccr2Word l) d (laneMask be) wLpp).setWidth 10 }) fun noLane => by
    rw [noLane, lccr2Word, merge_setWidth_noLane _ (by decide)]

theorem exec_wrLccr3 (be : Lanes) (d : Word) (s : State) :
    ∃ t, exec (.wrLccr3 be d) s = .next t ∧
      t.lcd = { s.lcd with pcd := (merge (lccr3Word s.lcd) d (laneMask be) wPcd).setWidth 8 } ∧ OnlyLcd be s s.mem t :=
  writeAccess_lcd (fun l => { l with pcd := (merge (lccr3Word l) d (laneMask be) wPcd).setWidth 8 }) fun noLane => by
    rw [noLane, lccr3Word, merge_setWidth_noLane _ (by decide)]

/-! ### The working registers -/

/-- A lane-masked write of one register of an LCD channel, read by `get` and replaced by `set`. -/
theorem writeAccess_lcdStores (get : LcdChannel → Word) (set : LcdChannel → Word → LcdChannel)
    (get_set : ∀ c v, get (set c v) = v) (set_get : ∀ c, set c (get c) = c) (w : Word) (n : LcdCh) (be : Lanes)
    (d : Word) (s : State) :
    ∃ t, writeAccess be
        (fun s => s.setLcdChan n (set (s.lcdChan n) (merge (get (s.lcdChan n)) d (laneMask be) w))) s = .next t ∧
      Merged (get (s.lcdChan n)) (get (t.lcdChan n)) d w be ∧
      t.lcdChan n = set (s.lcdChan n) (get (t.lcdChan n)) ∧
      t.lcd = { s.lcd with chan := s.lcd.chan.set n (t.lcdChan n) } ∧ OnlyLcd be s s.mem t := by
  obtain ⟨t, done, lcd, only⟩ := writeAccess_lcd (be := be) (s := s)
    (fun l => { l with chan := l.chan.set n (set l.chan[n] (merge (get l.chan[n]) d (laneMask be) w)) }) fun noLane => by
      subst noLane
      simp [set_get]
  have chan : t.lcdChan n = set (s.lcdChan n) (merge (get (s.lcdChan n)) d (laneMask be) w) := by
    rw [State.lcdChan, lcd]
    exact Vector.getElem_set_self n.isLt
  refine ⟨t, done, ?_⟩
  rw [chan, get_set]
  exact ⟨merge_merged _ _ _ _, rfl, lcd, only⟩

/-- Settles O44: LPP and PCD are registers narrower than a word, and each of the other four writes stores one register of
its channel. -/
theorem lcdRegisterWritesOnlyStore : Obligations.LcdRegisterWritesOnlyStore := by
  intro n be d s
  obtain ⟨t, done, lpp, only⟩ := exec_wrLccr2 be d s
  obtain ⟨u, done', pcd, only'⟩ := exec_wrLccr3 be d s
  refine ⟨⟨t, done, ?_, ?_, only⟩, ⟨u, done', ?_, ?_, only'⟩,
    writeAccess_lcdStores (·.fdadr) (fun c v => { c with fdadr := v }) (fun _ _ => rfl) (fun _ => rfl) wAll n be d s,
    writeAccess_lcdStores (·.fsadr) (fun c v => { c with fsadr := v }) (fun _ _ => rfl) (fun _ => rfl) wAll n be d s,
    writeAccess_lcdStores (·.fidr) (fun c v => { c with fidr := v }) (fun _ _ => rfl) (fun _ => rfl) wAll n be d s,
    writeAccess_lcdStores (·.ldcmd) (fun c v => { c with ldcmd := v }) (fun _ _ => rfl) (fun _ => rfl) wLdcmd n be d s⟩
  · rw [lpp]
    exact merge_setWidth_merged s.lcd.lpp (by decide) d wLpp be wLpp_within
  · rw [lpp]
  · rw [pcd]
    exact merge_setWidth_merged s.lcd.pcd (by decide) d wPcd be wPcd_within
  · rw [pcd]

/-! ### LCSR -/

/-- The bits 0 to 7 lie in lane 0. -/
theorem laneMask_low (be : Lanes) {k : Nat} (hk : k < 8) : (laneMask be).getLsbD k = be.getLsbD 0 := by
  rw [laneMask_bit be k (by omega), laneOn, Nat.div_eq_of_lt hk]

/-- The controller after `WR.LCSR`, with a lane or without one (R257). -/
def lcsrWritten (be : Lanes) (d : Word) (l : Lcd) : Lcd :=
  { l with
    eof := (w1c (lcsrWord l) d (laneMask be) fLcsr).extractLsb' 0 2
    bs := (w1c (lcsrWord l) d (laneMask be) fLcsr).extractLsb' 4 2 }

/-- A write of LCSR, at the bit of a flag. -/
theorem lcsrCleared_bit (l : Lcd) (be : Lanes) (d : Word) {k : Nat} (hk : k < 8) (flag : fLcsr.getLsbD k = true) :
    (w1c (lcsrWord l) d (laneMask be) fLcsr).getLsbD k =
      ((lcsrWord l).getLsbD k && !(be.getLsbD 0 && d.getLsbD k)) := by
  rw [w1c_bit _ _ _ _ _ (by omega), laneMask_low be hk, flag, Bool.and_true, Bool.and_comm (d.getLsbD k)]

theorem lcsrWritten_eof (be : Lanes) (d : Word) (l : Lcd) (n : LcdCh) :
    (lcsrWritten be d l).eof.getLsbD n = (l.eof.getLsbD n && !(be.getLsbD 0 && d.getLsbD n)) := by
  have flag : ∀ n : LcdCh, fLcsr.getLsbD n = true := by decide
  rw [lcsrWritten, BitVec.getLsbD_extractLsb', decide_eq_true n.isLt, Bool.true_and, Nat.zero_add,
    lcsrCleared_bit l be d (by omega) (flag n), lcsrWord_eof]

theorem lcsrWritten_bs (be : Lanes) (d : Word) (l : Lcd) (n : LcdCh) :
    (lcsrWritten be d l).bs.getLsbD n = (l.bs.getLsbD n && !(be.getLsbD 0 && d.getLsbD (4 + n))) := by
  have flag : ∀ n : LcdCh, fLcsr.getLsbD (4 + n) = true := by decide
  rw [lcsrWritten, BitVec.getLsbD_extractLsb', decide_eq_true n.isLt, Bool.true_and,
    lcsrCleared_bit l be d (by omega) (flag n), lcsrWord_bs]

theorem lcsrWritten_noLane (d : Word) (l : Lcd) : lcsrWritten 0 d l = l := by
  have eof : (lcsrWritten 0 d l).eof = l.eof := BitVec.eq_of_getLsbD_eq fun k hk => by
    simpa using lcsrWritten_eof 0 d l ⟨k, hk⟩
  have bs : (lcsrWritten 0 d l).bs = l.bs := BitVec.eq_of_getLsbD_eq fun k hk => by
    simpa using lcsrWritten_bs 0 d l ⟨k, hk⟩
  calc lcsrWritten 0 d l = { l with eof := (lcsrWritten 0 d l).eof, bs := (lcsrWritten 0 d l).bs } := rfl
    _ = l := by rw [eof, bs]

/-- Settles O45: the controller after the write is `lcsrWritten`. -/
theorem lcsrWriteClearsWrittenFlags : Obligations.LcsrWriteClearsWrittenFlags := by
  intro be d s
  obtain ⟨t, done, lcd, only⟩ : ∃ t, exec (.wrLcsr be d) s = .next t ∧ t.lcd = lcsrWritten be d s.lcd ∧ _ :=
    writeAccess_lcd (lcsrWritten be d) fun noLane => noLane ▸ lcsrWritten_noLane d s.lcd
  refine ⟨t, done, ?_⟩
  rw [lcd]
  exact ⟨fun n => ⟨lcsrWritten_eof be d s.lcd n, lcsrWritten_bs be d s.lcd n⟩, rfl, only⟩

/-! ### LCCR0 -/

/-- Putting back the bit a vector has. -/
theorem putBit_self {w : Nat} (v : BitVec w) {k : Nat} (hk : k < w) : putBit v k (v.getLsbD k) = v :=
  BitVec.eq_of_getLsbD_eq fun j _ => by
    rw [putBit_bit v k j _ hk]
    split
    · next same => rw [same]
    · rfl

/-- Without a lane no channel starts. -/
theorem startsLcd_noLane (n : LcdCh) (d : Word) (s : State) : startsLcd n 0 d s = false := by
  simp [startsLcd]

/-- Without a lane the part of `WR.LCCR0` for channel n does nothing (40_dispatcher.md R133). -/
theorem lccr0WriteBit_noLane (n : LcdCh) (d : Word) (s : State) : lccr0WriteBit n 0 d s = s := by
  have disabled : (0 : Lanes).getLsbD 0 = false := rfl
  rw [lccr0WriteBit_eq, startedImage, startsLcd_noLane, disabled, if_neg Bool.false_ne_true, putBit_self _ n.isLt]
  simp [State.lcdChan, State.setLcd, State.setMem]

/-- A channel starts exactly when the write takes its LCDEN from 0 to 1 (R251, R261). -/
theorem startsLcd_iff (n : LcdCh) (be : Lanes) (d : Word) (s : State) :
    startsLcd n be d s = true ↔
      s.lcd.lcden.getLsbD n = false ∧
        (if be.getLsbD 0 then d.getLsbD n else s.lcd.lcden.getLsbD n) = true := by
  unfold startsLcd
  cases s.lcd.lcden.getLsbD n
  · cases be.getLsbD 0 <;> simp
  · simp

/-- The part for one channel leaves the other channel, and whether it starts. -/
theorem lccr0WriteBit_other {n k : LcdCh} (other : k ≠ n) (be : Lanes) (d : Word) (s : State) :
    (lccr0WriteBit n be d s).lcdChan k = s.lcdChan k ∧ startsLcd k be d (lccr0WriteBit n be d s) = startsLcd k be d s := by
  refine ⟨?_, ?_⟩
  · rw [lccr0WriteBit_lcdChan, if_neg fun h => other h.1]
  · rw [startsLcd, lccr0WriteBit_lcden, if_neg fun h => other h.1, startsLcd]

/-- The effect of `WR.LCCR0`: channel 0, then channel 1 (R251). -/
def lccr0Written (be : Lanes) (d : Word) (s : State) : State := lccr0WriteBit 1 be d (lccr0WriteBit 0 be d s)

theorem lccr0Written_noLane (d : Word) (s : State) : lccr0Written 0 d s = s := by
  rw [lccr0Written, lccr0WriteBit_noLane, lccr0WriteBit_noLane]

/-- A channel's LCDEN takes the written bit of lane 0 (R251). -/
theorem lccr0Written_lcden (be : Lanes) (d : Word) (s : State) (n : LcdCh) :
    (lccr0Written be d s).lcd.lcden.getLsbD n = if be.getLsbD 0 then d.getLsbD n else s.lcd.lcden.getLsbD n := by
  rw [lccr0Written, lccr0WriteBit_lcden, lccr0WriteBit_lcden]
  match n with
  | 0 => simp
  | 1 => simp

/-- The image from which channel n would load: channel 0 comes first (R251). -/
def lccr0Source (be : Lanes) (d : Word) (s : State) (n : LcdCh) : Image :=
  if n = 0 then s.mem else startedImage 0 be d s

/-- A channel loads its branch descriptor when it starts, and else is as it was (R251, R261, R263). -/
theorem lccr0Written_lcdChan (be : Lanes) (d : Word) (s : State) (n : LcdCh) :
    (lccr0Written be d s).lcdChan n =
      if startsLcd n be d s then loadedLcdChannel (lccr0Source be d s n) s.lcd.lpp s.lcd.pcd (s.lcdChan n)
      else s.lcdChan n := by
  rw [lccr0Written]
  match n with
  | 0 =>
    obtain ⟨chan, -⟩ := lccr0WriteBit_other (n := 1) (k := 0) (by decide) be d (lccr0WriteBit 0 be d s)
    rw [chan, lccr0WriteBit_lcdChan, lccr0Source]
    simp only [true_and, if_true]
  | 1 =>
    obtain ⟨chan, starts⟩ := lccr0WriteBit_other (n := 0) (k := 1) (by decide) be d s
    rw [lccr0WriteBit_lcdChan, chan, starts, lccr0WriteBit_mem, lccr0WriteBit_eq]
    simp only [true_and]
    rfl

/-- The image after the write: channel 1's start reads after channel 0's. -/
theorem lccr0Written_mem (be : Lanes) (d : Word) (s : State) :
    (lccr0Written be d s).mem =
      if startsLcd 1 be d s then runImage 16 (s.lcdChan 1).fdadr (startedImage 0 be d s) else startedImage 0 be d s := by
  obtain ⟨chan, starts⟩ := lccr0WriteBit_other (n := 0) (k := 1) (by decide) be d s
  rw [lccr0Written, lccr0WriteBit_mem, startedImage, chan, starts, lccr0WriteBit_mem]
  rfl

/-- The write touches LCDEN and the channels of the controller, and what the ports have seen. -/
theorem lccr0Written_eq (be : Lanes) (d : Word) (s : State) :
    lccr0Written be d s = (s.setLcd (lccr0Written be d s).lcd).setMem (lccr0Written be d s).mem ∧
      (lccr0Written be d s).lcd =
        { s.lcd with
          lcden := (lccr0Written be d s).lcd.lcden
          chan := (lccr0Written be d s).lcd.chan } := by
  simp only [lccr0Written, lccr0WriteBit_eq]
  exact ⟨rfl, rfl⟩

/-- A started channel has loaded, any other has kept its working registers; neither touches the framebuffer. -/
theorem lccr0Written_working (be : Lanes) (d : Word) (s : State) (n : LcdCh) :
    ((lccr0Written be d s).lcdChan n).fb = (s.lcdChan n).fb ∧
      if startsLcd n be d s then
        LcdChannelLoaded (lccr0Source be d s n) (s.lcdChan n).fdadr s.lcd.lpp s.lcd.pcd
          ((lccr0Written be d s).lcdChan n)
      else SameLcdWorking (s.lcdChan n) ((lccr0Written be d s).lcdChan n) := by
  rw [lccr0Written_lcdChan]
  split
  · exact ⟨rfl, loadedLcdChannel_loaded _ _ _ _⟩
  · exact ⟨rfl, rfl, rfl, rfl, rfl, rfl⟩

/-- `WR.LCCR0` completes with the controller of `lccr0Written`, under every lane mask, and touches nothing else. -/
theorem exec_wrLccr0 (be : Lanes) (d : Word) (s : State) :
    ∃ t, exec (.wrLccr0 be d) s = .next t ∧ t.lcd = (lccr0Written be d (s.answer none)).lcd ∧
      OnlyLcd be s (lccr0Written be d (s.answer none)).mem t := by
  have nothing (noLane : be = 0) : lccr0Written be d (s.answer none) = s.answer none :=
    noLane ▸ lccr0Written_noLane d _
  exact ⟨_, rfl, afterWrite_lcd (f := lccr0Written be d) fun noLane => by rw [nothing noLane]; rfl,
    afterWrite_onlyLcd be (lccr0Written be d) (fun s => (lccr0Written be d s).lcd) s _
      (fun noLane => by rw [nothing noLane]; rfl) (lccr0Written_eq be d _).1⟩

/-- Settles O43: by cases on the starts each channel has loaded or kept its working registers, and the images are those of
`lccr0Written_mem`. -/
theorem lccr0WriteEnablesAndDisables : Obligations.Lccr0WriteEnablesAndDisables := by
  intro be d s
  obtain ⟨t, done, lcd, only⟩ := exec_wrLccr0 be d s
  have chan (n : LcdCh) : t.lcdChan n = (lccr0Written be d (s.answer none)).lcdChan n := by
    rw [State.lcdChan, lcd, State.lcdChan]
  have lcden (n : LcdCh) :
      t.lcd.lcden.getLsbD n = if be.getLsbD 0 then d.getLsbD n else s.lcd.lcden.getLsbD n := by
    rw [lcd, lccr0Written_lcden, State.answer_lcd]
  have starts (n : LcdCh) :
      (s.lcd.lcden.getLsbD n = false ∧ t.lcd.lcden.getLsbD n = true) ↔ startsLcd n be d s = true := by
    rw [lcden, startsLcd_iff]
  have registers := (lccr0Written_eq be d (s.answer none)).2
  refine ⟨t, startedImage 0 be d s, (lccr0Written be d (s.answer none)).mem, done, ?_, ?_, fun n => ⟨lcden n, ?_⟩, ?_⟩
  · exact (if_congr (starts 0) rfl rfl).symm
  · rw [lccr0Written_mem]
    exact (if_congr (starts 1) rfl rfl).symm
  · rw [if_congr (starts n) rfl rfl, chan]
    exact lccr0Written_working be d (s.answer none) n
  · rw [lcd, registers]
    exact ⟨rfl, rfl, rfl, rfl, rfl, only⟩

end Sys2Proof.Machine
end

section
/-! ## An LCD end of frame

An end of frame streams the frame or loads the palette, latches its flags, notifies the display and stops or loads the next
branch descriptor (44_lcd.md R264 to R268). What it reads is one run of bytes from FSADR upward (20_memory.md R73, R88). -/

namespace Sys2Proof.Machine

/-! ### The ended channel -/

/-- Streaming changes the framebuffer only, and a palette load not even that. -/
theorem shownChannel_eq (s : State) (n : LcdCh) : shownChannel s n = { s.lcdChan n with fb := (shownChannel s n).fb } := by
  unfold shownChannel
  split <;> rfl

theorem shownChannel_fdadr (s : State) (n : LcdCh) : (shownChannel s n).fdadr = (s.lcdChan n).fdadr := by
  rw [shownChannel_eq]

theorem shownChannel_fidr (s : State) (n : LcdCh) : (shownChannel s n).fidr = (s.lcdChan n).fidr := by
  rw [shownChannel_eq]

section
variable {s : State} {n : LcdCh}

/-- With STOP the working registers stay (R264). -/
theorem endedChannel_of_stop (stop : ldcmdStop (s.lcdChan n).ldcmd = true) :
    SameLcdWorking (s.lcdChan n) (endedChannel s n) := by
  rw [endedChannel, if_pos stop, shownChannel_eq]
  exact ⟨rfl, rfl, rfl, rfl, rfl⟩

/-- Without STOP the next branch descriptor is loaded, from the image after the frame or the palette (R264). -/
theorem endedChannel_of_not_stop (goesOn : ldcmdStop (s.lcdChan n).ldcmd = false) :
    LcdChannelLoaded (shownImage s n) (s.lcdChan n).fdadr s.lcd.lpp s.lcd.pcd (endedChannel s n) := by
  rw [endedChannel, goesOn, if_neg Bool.false_ne_true, ← shownChannel_fdadr]
  exact loadedLcdChannel_loaded _ _ _ _

/-- After an end of frame the framebuffer is the one shown. -/
theorem lcdFire_fb (enabled : s.lcd.lcden.getLsbD n = true) : ((lcdFire n s).lcdChan n).fb = (shownChannel s n).fb := by
  rw [lcdFire_lcdChan_same enabled, endedChannel_fb]

/-- A palette load leaves the framebuffer (R266). -/
theorem lcdFire_fb_of_pal (enabled : s.lcd.lcden.getLsbD n = true) (pal : ldcmdPal (s.lcdChan n).ldcmd = true) :
    ((lcdFire n s).lcdChan n).fb = (s.lcdChan n).fb := by
  rw [lcdFire_fb enabled, shownChannel, if_pos pal]

/-- Without PAL the frame is streamed (R265). -/
theorem lcdFire_fb_of_not_pal (enabled : s.lcd.lcden.getLsbD n = true)
    (noPal : ldcmdPal (s.lcdChan n).ldcmd = false) :
    ((lcdFire n s).lcdChan n).fb = streamedFrame s.mem s.lcd.palette s.lcd.lpp (s.lcdChan n) := by
  rw [lcdFire_fb enabled, shownChannel, noPal, if_neg Bool.false_ne_true]

/-- Streaming leaves the palette (R265). -/
theorem lcdFire_palette_of_not_pal (enabled : s.lcd.lcden.getLsbD n = true)
    (noPal : ldcmdPal (s.lcdChan n).ldcmd = false) : (lcdFire n s).lcd.palette = s.lcd.palette := by
  rw [lcdFire_palette enabled, noPal, if_neg Bool.false_ne_true]

/-- With PAL the palette is loaded (R266). -/
theorem lcdFire_palette_of_pal (enabled : s.lcd.lcden.getLsbD n = true) (pal : ldcmdPal (s.lcdChan n).ldcmd = true) :
    (lcdFire n s).lcd.palette = loadedPalette s.mem (s.lcdChan n) s.lcd.palette := by
  rw [lcdFire_palette enabled, if_pos pal]

/-! ### The flags -/

/-- Setting a channel's own bit, channel by channel. -/
theorem setBit_lcdCh (v : BitVec 2) (n k : LcdCh) : (setBit v n).getLsbD k = (v.getLsbD k || decide (k = n)) := by
  rw [setBit_bit, decide_eq_true k.isLt, Bool.true_and]
  simp only [Fin.ext_iff]

/-- EOF is set for the channel whose frame ended (R264). -/
theorem lcdFire_eof_bit (enabled : s.lcd.lcden.getLsbD n = true) (k : LcdCh) :
    (lcdFire n s).lcd.eof.getLsbD k = (s.lcd.eof.getLsbD k || decide (k = n)) := by
  rw [lcdFire_eof enabled, setBit_lcdCh]

/-- BINT of the ended descriptor decides on the channel's own branch flag (R264). -/
theorem lcdFire_bs_bit (enabled : s.lcd.lcden.getLsbD n = true) (k : LcdCh) :
    (lcdFire n s).lcd.bs.getLsbD k =
      (s.lcd.bs.getLsbD k || (decide (k = n) && ldcmdBint (s.lcdChan n).ldcmd)) := by
  rw [lcdFire_bs enabled]
  cases ldcmdBint (s.lcdChan n).ldcmd
  · rw [if_neg Bool.false_ne_true, Bool.and_false, Bool.or_false]
  · rw [if_pos rfl, setBit_lcdCh, Bool.and_true]

/-- STOP of the ended descriptor decides on the channel's own enable (R264). -/
theorem lcdFire_lcden_bit (enabled : s.lcd.lcden.getLsbD n = true) (k : LcdCh) :
    (lcdFire n s).lcd.lcden.getLsbD k =
      if k = n then !ldcmdStop (s.lcdChan n).ldcmd else s.lcd.lcden.getLsbD k := by
  rw [lcdFire_lcden enabled]
  by_cases same : k = n
  · subst same
    rw [if_pos rfl]
    cases ldcmdStop (s.lcdChan k).ldcmd
    · exact enabled
    · rw [if_pos rfl, clearBit_bit, decide_eq_true rfl, Bool.not_true, Bool.and_false]
  · have otherBit : k.val ≠ n.val := fun h => same (Fin.ext h)
    rw [if_neg same]
    split
    · rw [clearBit_bit, decide_eq_false otherBit, Bool.not_false, Bool.and_true]
    · rfl

end

/-! ### How much is read -/

/-- The bytes of a frame by its pixel format (R265, R267). -/
theorem streamLength_eq (lpp : BitVec 10) (c : LcdChannel) :
    streamLength lpp c =
      if ldcmdPf c.ldcmd = 0 then (lpp.toNat + 1) * (ldcmdLlen c.ldcmd).toNat
      else if ldcmdPf c.ldcmd = 1 then 2 * ((lpp.toNat + 1) * (ldcmdLlen c.ldcmd).toNat) else 0 := by
  have formats : ∀ pf : BitVec 2, pf = 0 ∨ pf = 1 ∨ pf = 2 ∨ pf = 3 := by decide
  unfold streamLength frameLines
  rcases formats (ldcmdPf c.ldcmd) with pf | pf | pf | pf <;> rw [pf] <;> rfl

/-- Settles O46: each field of the state after the event is that of its own lemma, by cases on STOP for the working
registers. -/
theorem lcdEndOfFrameEffect : Obligations.LcdEndOfFrameEffect := by
  intro s n
  refine ⟨lcdFire_idle, fun enabled => ⟨shownLength s n, shownImage s n, ?_, rfl, lcdFire_mem enabled,
    lcdFire_eof_bit enabled, lcdFire_bs_bit enabled, lcdFire_lcden_bit enabled, ?_, lcdFire_fb_of_pal enabled,
    lcdFire_palette_of_not_pal enabled, fun stop => ?_, fun goesOn => ?_, fun k => lcdFire_lcdChan_other s,
    lcdFire_lpp n s, lcdFire_pcd n s, lcdFire_timer n s, lcdFire_dma n s, lcdFire_onlyRead n s, lcdFire_frame n s⟩⟩
  · rw [shownLength, streamLength_eq]
    rfl
  · rw [lcdFire_trace enabled, lcdFire_fb enabled, frameOutOf, shownChannel_fidr]
  · rw [lcdFire_lcdChan_same enabled]
    exact endedChannel_of_stop stop
  · rw [lcdFire_lcdChan_same enabled]
    exact endedChannel_of_not_stop goesOn

/-! ### The pixels of a frame -/

/-- Byte j of a run on plain memory. -/
theorem runBytes_getD_of_plain {m : Image} {a : Word} {n : Nat} (plain : PlainRun m a n) {j : Nat} (hj : j < n) :
    (runBytes n a m).getD j 0 = plainByte m (a + BitVec.ofNat 32 j) := by
  rw [(run_plain plain).1]
  simp [hj]

/-- A pixel of a line is one of the frame's. -/
theorem pixel_lt {y x lines llen : Nat} (hy : y < lines) (hx : x < llen) : y * llen + x < lines * llen := by
  calc y * llen + x < y * llen + llen := Nat.add_lt_add_left hx _
    _ = (y + 1) * llen := (Nat.succ_mul y llen).symm
    _ ≤ lines * llen := Nat.mul_le_mul_right llen hy

/-- An indexed pixel is the palette entry of its byte (R265). -/
theorem indexedPixels_getElem? (bytes : List Byte) (pal : Vector Word 256) {i : Nat} (hi : i < bytes.length) :
    (bytes.map (indexedPixel pal))[i]? = pal[(bytes.getD i 0).toNat]? := by
  rw [List.getElem?_map, List.getElem?_eq_getElem hi, List.getD_eq_getElem _ _ hi,
    Vector.getElem?_eq_getElem (bytes[i]).isLt]
  rfl

/-- A 16-bit value read from memory, as a register word. -/
theorem halves_word {bytes : List Byte} {cnt : Nat} (len : bytes.length = 2 * cnt) {k : Nat} (hk : k < cnt) :
    ∃ v, (halves bytes)[k]? = some v ∧
      (v.setWidth 32).toNat = (bytes.getD (2 * k) 0).toNat + 2 ^ 8 * (bytes.getD (2 * k + 1) 0).toNat := by
  obtain ⟨v, held, value⟩ := (halves_getElem cnt bytes len).2 k hk
  exact ⟨v, held, by rw [BitVec.toNat_setWidth_of_le (by decide), value]⟩

section
variable {c : LcdChannel} (m : Image) (pal : Vector Word 256) (lpp : BitVec 10)

theorem streamedFrame_indexed (pf : (ldcmdPf c.ldcmd).toNat = 0) :
    streamedFrame m pal lpp c =
      ⟨frameLines lpp, (ldcmdLlen c.ldcmd).toNat,
        (runBytes (frameLines lpp * (ldcmdLlen c.ldcmd).toNat) c.fsadr m).map (indexedPixel pal)⟩ := by
  simp only [streamedFrame, streamLength, pf]

theorem streamedFrame_direct (pf : (ldcmdPf c.ldcmd).toNat = 1) :
    streamedFrame m pal lpp c =
      ⟨frameLines lpp, (ldcmdLlen c.ldcmd).toNat,
        (halves (runBytes (2 * (frameLines lpp * (ldcmdLlen c.ldcmd).toNat)) c.fsadr m)).map (·.setWidth 32)⟩ := by
  simp only [streamedFrame, streamLength, pf]

/-- An invalid pixel format streams nothing (R267). -/
theorem streamedFrame_invalid (pf : 2 ≤ (ldcmdPf c.ldcmd).toNat) : streamedFrame m pal lpp c = c.fb := by
  unfold streamedFrame
  split
  · omega
  · omega
  · rfl

/-- With a valid pixel format the framebuffer holds `LPP + 1` lines of LLEN pixels (R265). -/
theorem streamedFrame_shape (valid : (ldcmdPf c.ldcmd).toNat < 2) :
    (streamedFrame m pal lpp c).lines = frameLines lpp ∧ (streamedFrame m pal lpp c).llen = (ldcmdLlen c.ldcmd).toNat ∧
      (streamedFrame m pal lpp c).pix.length = frameLines lpp * (ldcmdLlen c.ldcmd).toNat := by
  obtain indexed | direct : (ldcmdPf c.ldcmd).toNat = 0 ∨ (ldcmdPf c.ldcmd).toNat = 1 := by omega
  · rw [streamedFrame_indexed _ _ _ indexed]
    exact ⟨rfl, rfl, by rw [List.length_map, runBytes_length]⟩
  · rw [streamedFrame_direct _ _ _ direct]
    exact ⟨rfl, rfl, by rw [List.length_map, (halves_getElem _ _ (runBytes_length _ _ _)).1]⟩

variable {i : Nat} (hi : i < frameLines lpp * (ldcmdLlen c.ldcmd).toNat)
include hi

/-- Pixel i of an indexed frame is the palette entry of byte i (R265). -/
theorem streamedFrame_indexed_pixel (pf : (ldcmdPf c.ldcmd).toNat = 0) :
    (streamedFrame m pal lpp c).pix[i]? =
      pal[((runBytes (frameLines lpp * (ldcmdLlen c.ldcmd).toNat) c.fsadr m).getD i 0).toNat]? := by
  rw [streamedFrame_indexed _ _ _ pf]
  exact indexedPixels_getElem? _ _ (by rwa [runBytes_length])

/-- Pixel i of a direct frame is bytes 2 i and 2 i + 1, least significant first (R265). -/
theorem streamedFrame_direct_pixel (pf : (ldcmdPf c.ldcmd).toNat = 1) {bytes : List Byte}
    (read : bytes = runBytes (2 * (frameLines lpp * (ldcmdLlen c.ldcmd).toNat)) c.fsadr m) :
    ∃ v : Word, (streamedFrame m pal lpp c).pix[i]? = some v ∧
      v.toNat = (bytes.getD (2 * i) 0).toNat + 2 ^ 8 * (bytes.getD (2 * i + 1) 0).toNat := by
  have length : bytes.length = 2 * (frameLines lpp * (ldcmdLlen c.ldcmd).toNat) := by rw [read, runBytes_length]
  obtain ⟨v, held, value⟩ := halves_word length hi
  refine ⟨v.setWidth 32, ?_, value⟩
  rw [streamedFrame_direct _ _ _ pf, ← read, List.getElem?_map, held]
  rfl

end

/-- Settles O47: by the pixel format the framebuffer is that of `streamedFrame_indexed`, `streamedFrame_direct` or
`streamedFrame_invalid`. -/
theorem lcdStreamedPixels : Obligations.LcdStreamedPixels := by
  intro s n enabled noPal fb llen pf total hfb hllen hpf htotal bytes hbytes
  rw [lcdFire_fb_of_not_pal enabled noPal] at hfb
  subst hfb hllen hpf hbytes
  have shape := streamedFrame_shape (c := s.lcdChan n) s.mem s.lcd.palette s.lcd.lpp
  refine ⟨fun valid => ?_, fun indexed y x hy hx => ?_, fun direct y x hy hx => ?_,
    streamedFrame_invalid _ _ _, fun plain j hj => runBytes_getD_of_plain plain hj⟩
  · obtain ⟨lines, width, pixels⟩ := shape valid
    exact ⟨lines, width, lines ▸ pixels⟩
  · obtain ⟨lines, -⟩ := shape (indexed.trans_lt Nat.two_pos)
    rw [htotal, if_pos indexed]
    exact streamedFrame_indexed_pixel _ _ _ (pixel_lt (lines ▸ hy) hx) indexed
  · obtain ⟨lines, -⟩ := shape (direct.trans_lt Nat.one_lt_two)
    rw [htotal, if_neg (direct ▸ Nat.one_ne_zero)]
    exact streamedFrame_direct_pixel _ _ _ (pixel_lt (lines ▸ hy) hx) direct rfl

/-! ### The entries of a palette -/

section
variable (m : Image) (c : LcdChannel) (pal : Vector Word 256) {k : Fin 256}

/-- An entry that a palette load fills (R266). -/
theorem loadedPalette_below (hk : k.val < paletteCount c) :
    ((loadedPalette m c pal)[k]).toNat =
      ((runBytes (2 * paletteCount c) c.fsadr m).getD (2 * k) 0).toNat +
        2 ^ 8 * ((runBytes (2 * paletteCount c) c.fsadr m).getD (2 * k + 1) 0).toNat := by
  obtain ⟨v, held, value⟩ := halves_word (runBytes_length (2 * paletteCount c) c.fsadr m) hk
  rw [← value, loadedPalette, Fin.getElem_fin, Vector.getElem_ofFn, if_pos hk, List.getD_eq_getElem?_getD, held]
  rfl

/-- An entry beyond those a palette load fills (R266). -/
theorem loadedPalette_above (hk : paletteCount c ≤ k.val) : (loadedPalette m c pal)[k] = pal[k] := by
  rw [loadedPalette, Fin.getElem_fin, Vector.getElem_ofFn, if_neg (Nat.not_lt.2 hk)]

end

/-- Settles O48: the palette after the event is `loadedPalette`, entry by entry. -/
theorem lcdPaletteLoadFillsTheFirstEntries : Obligations.LcdPaletteLoadFillsTheFirstEntries := by
  intro s n enabled pal cnt bytes hcnt hbytes
  obtain rfl : cnt = paletteCount (s.lcdChan n) := hcnt
  subst hbytes
  rw [lcdFire_palette_of_pal enabled pal]
  exact ⟨lcdFire_fb_of_pal enabled pal, fun k => ⟨loadedPalette_below _ _ _, loadedPalette_above _ _ _⟩,
    fun plain j hj => runBytes_getD_of_plain plain hj⟩

end Sys2Proof.Machine
end

section
/-! ## The register operations of the GPIO Block

A read answers a register of its bank or the levels of its pins (45_gpio.md R300 to R312). A write replaces registers of its
bank and may notify the collaborator (R303 to R313); without a lane it does neither (40_dispatcher.md R133). -/

namespace Sys2Proof.Machine

/-! ### The reads -/

/-- A pin's level is the latch on an output pin and the reported level on an input pin (R57). -/
theorem gplrView_bit (g : GpioBank) {k : Nat} (hk : k < 32) :
    (gplrView g).getLsbD k = if g.gpdir.getLsbD k then g.gpout.getLsbD k else g.gpin.getLsbD k := by
  rw [gplrView, BitVec.getLsbD_or, BitVec.getLsbD_and, BitVec.getLsbD_and, BitVec.getLsbD_not, decide_eq_true hk]
  cases g.gpdir.getLsbD k with
  | false => simp
  | true => simp

/-- Settles O22: the rows of each bank answer its registers, and `gplrView_bit` reads GPLR bit by bit. -/
theorem gpioReadsReturnTheRegistersAndLevels : Obligations.GpioReadsReturnTheRegistersAndLevels := by
  intro s b be
  have levels : Reads (rdGplr b be) s (gplrView (s.bank b)) := match b with | 0 | 1 | 2 => rfl
  have registers : Reads (rdGpdr b be) s (s.bank b).gpdir ∧ Reads (rdGpsr b be) s 0 ∧ Reads (rdGpcr b be) s 0 ∧
      Reads (rdGrer b be) s (s.bank b).grer ∧ Reads (rdGfer b be) s (s.bank b).gfer ∧
      Reads (rdGedr b be) s (s.bank b).gedr :=
    match b with | 0 | 1 | 2 => ⟨rfl, rfl, rfl, rfl, rfl, rfl⟩
  exact ⟨⟨gplrView (s.bank b), levels, fun _ => gplrView_bit (s.bank b)⟩, registers⟩

/-! ### A write of a bank -/

/-- A write whose effect leaves bank b as g and the trace as tr completes and touches nothing else, where without a lane g
and tr are what they were. -/
theorem writeAccess_bank {b : Bank} {be : Lanes} {f : State → State} {s : State} (g : GpioBank) (tr : List OutEvent)
    (effect : f (s.answer none) = { (s.answer none).setBank b g with trace := tr })
    (noLane : be = 0 → g = s.bank b ∧ tr = s.trace) :
    ∃ t, writeAccess be f s = .next t ∧ t.bank b = g ∧ t.trace = tr ∧ OnlyBank b be s t := by
  refine ⟨_, rfl, afterWrite_cases (P := fun t => t.bank b = g) (fun hb => (noLane hb).1.symm) fun _ => ?_,
    afterWrite_cases (P := fun t => t.trace = tr) (fun hb => (noLane hb).2.symm) fun _ => ?_,
    afterWrite_onlyBank b be f s ⟨g, tr, effect⟩⟩
  · rw [intcUpdate_bank, effect]
    exact State.setBank_bank_same _ b g
  · rw [intcUpdate_trace, effect]

/-- A write whose effect on bank b is g and which notifies nobody, where g does nothing without a lane. -/
theorem writeAccess_setBank {b : Bank} {be : Lanes} (g : GpioBank → GpioBank) {s : State}
    (noLane : be = 0 → g (s.bank b) = s.bank b) :
    ∃ t, writeAccess be (fun s => s.setBank b (g (s.bank b))) s = .next t ∧ t.bank b = g (s.bank b) ∧
      t.trace = s.trace ∧ OnlyBank b be s t :=
  writeAccess_bank _ _ rfl fun hb => ⟨noLane hb, rfl⟩

/-! ### GRER, GFER and GEDR -/

/-- Settles O50: each write replaces its own register of the bank, by a merge or by a write-one-to-clear. -/
theorem edgeEnableWritesStoreAndLatchWritesClear : Obligations.EdgeEnableWritesStoreAndLatchWritesClear := by
  intro b be d s
  have rows : exec (wrGrer b be d) s = writeGrer b be d s ∧ exec (wrGfer b be d) s = writeGfer b be d s ∧
      exec (wrGedr b be d) s = writeGedr b be d s :=
    match b with | 0 | 1 | 2 => ⟨rfl, rfl, rfl⟩
  obtain ⟨grerRow, gferRow, gedrRow⟩ := rows
  rw [grerRow, gferRow, gedrRow]
  obtain ⟨t, done, bank, trace, only⟩ := writeAccess_setBank (b := b) (be := be) (s := s)
    (fun g => { g with grer := mergeAll g.grer be d }) fun noLane => by simp [noLane]
  obtain ⟨u, done', bank', trace', only'⟩ := writeAccess_setBank (b := b) (be := be) (s := s)
    (fun g => { g with gfer := mergeAll g.gfer be d }) fun noLane => by simp [noLane]
  obtain ⟨v, done'', bank'', trace'', only''⟩ := writeAccess_setBank (b := b) (be := be) (s := s)
    (fun g => { g with gedr := w1c g.gedr d (laneMask be) wAll }) fun noLane => by simp [noLane]
  refine ⟨⟨t, done, ?_⟩, ⟨u, done', ?_⟩, v, done'', ?_⟩
  · rw [bank]
    exact ⟨mergeAll_merged _ _ _, rfl, trace, only⟩
  · rw [bank']
    exact ⟨mergeAll_merged _ _ _, rfl, trace', only'⟩
  · rw [bank'']
    exact ⟨w1c_cleared _ _ _ _, rfl, trace'', only''⟩

/-! ### GPDR -/

/-- A write whose effect is `updateDriven` notifies exactly when the pair of direction and driven levels changed (R303,
R314), where without a lane the direction is kept. -/
theorem writeAccess_direction {b : Bank} {be : Lanes} (dir : GpioBank → Word) {s : State}
    (noLane : be = 0 → dir (s.bank b) = (s.bank b).gpdir) :
    ∃ t, writeAccess be (fun s => updateDriven b { s.bank b with gpdir := dir (s.bank b) } s) s = .next t ∧
      t.bank b = { s.bank b with gpdir := dir (s.bank b) } ∧
      t.trace = (if dir (s.bank b) = (s.bank b).gpdir ∧
          dir (s.bank b) &&& (s.bank b).gpout = (s.bank b).gpdir &&& (s.bank b).gpout then s.trace
        else s.trace ++ [.gpioOut b (dir (s.bank b)) (dir (s.bank b) &&& (s.bank b).gpout)]) ∧ OnlyBank b be s t :=
  writeAccess_bank _ _ (updateDriven_eq b _ _) fun hb => by rw [noLane hb]; exact ⟨rfl, if_pos ⟨rfl, rfl⟩⟩

/-- Settles O51: the direction after the write is the merged one. -/
theorem directionWriteStoresAndNotifies : Obligations.DirectionWriteStoresAndNotifies := by
  intro b be d s
  have row : exec (wrGpdr b be d) s = writeGpdr b be d s := match b with | 0 | 1 | 2 => rfl
  rw [row]
  obtain ⟨t, done, bank, trace, only⟩ :=
    writeAccess_direction (b := b) (be := be) (s := s) (fun g => mergeAll g.gpdir be d) fun noLane => by simp [noLane]
  refine ⟨t, done, ?_⟩
  rw [bank]
  exact ⟨mergeAll_merged _ _ _, rfl, trace, only⟩

/-! ### GPSR and GPCR -/

/-- A write whose effect is `updateLatch` notifies exactly when the latch changed (R305, R307), where without a lane the
latch is kept. -/
theorem writeAccess_latch {b : Bank} {be : Lanes} (out : GpioBank → Word) {s : State}
    (noLane : be = 0 → out (s.bank b) = (s.bank b).gpout) :
    ∃ t, writeAccess be (fun s => updateLatch b (out (s.bank b)) s) s = .next t ∧
      t.bank b = { s.bank b with gpout := out (s.bank b) } ∧
      t.trace = (if out (s.bank b) = (s.bank b).gpout then s.trace
        else s.trace ++ [.gpioOut b (s.bank b).gpdir ((s.bank b).gpdir &&& out (s.bank b))]) ∧ OnlyBank b be s t :=
  writeAccess_bank _ _ (updateLatch_eq b _ _) fun hb => by rw [noLane hb]; exact ⟨rfl, if_pos rfl⟩

theorem lanedData_bit (be : Lanes) (d : Word) {k : Nat} (hk : k < 32) :
    (lanedData be d).getLsbD k = (laneOn be k && d.getLsbD k) := by
  rw [lanedData, BitVec.getLsbD_and, laneMask_bit be k hk, Bool.and_comm]

@[simp] theorem lanedData_zero (d : Word) : lanedData 0#4 d = 0#32 := by simp [lanedData]

/-- The output latch after `WR.GPSR`, with a lane or without one (R305). -/
def latchSet (be : Lanes) (d : Word) (g : GpioBank) : Word := g.gpout ||| (lanedData be d &&& g.gpdir)

/-- The output latch after `WR.GPCR`, with a lane or without one (R307). -/
def latchCleared (be : Lanes) (d : Word) (g : GpioBank) : Word := g.gpout &&& ~~~(lanedData be d &&& g.gpdir)

theorem latchSet_bit (be : Lanes) (d : Word) (g : GpioBank) {k : Nat} (hk : k < 32) :
    (latchSet be d g).getLsbD k = (g.gpout.getLsbD k || (laneOn be k && d.getLsbD k && g.gpdir.getLsbD k)) := by
  rw [latchSet, BitVec.getLsbD_or, BitVec.getLsbD_and, lanedData_bit be d hk]

theorem latchCleared_bit (be : Lanes) (d : Word) (g : GpioBank) {k : Nat} (hk : k < 32) :
    (latchCleared be d g).getLsbD k = (g.gpout.getLsbD k && !(laneOn be k && d.getLsbD k && g.gpdir.getLsbD k)) := by
  rw [latchCleared, BitVec.getLsbD_and, BitVec.getLsbD_not, BitVec.getLsbD_and, lanedData_bit be d hk,
    decide_eq_true hk, Bool.true_and]

theorem latchSet_noLane (d : Word) (g : GpioBank) : latchSet 0 d g = g.gpout := by
  simp [latchSet]

theorem latchCleared_noLane (d : Word) (g : GpioBank) : latchCleared 0 d g = g.gpout := by
  have nothing : lanedData 0 d = 0#32 := lanedData_zero d
  rw [latchCleared, nothing, BitVec.zero_and, BitVec.not_zero, BitVec.and_allOnes]

/-- Settles O52: the latches after the writes are `latchSet` and `latchCleared`, bit by bit. -/
theorem setAndClearWritesMoveOnlyOutputPins : Obligations.SetAndClearWritesMoveOnlyOutputPins := by
  intro b be d s
  have setRow : exec (wrGpsr b be d) s = writeGpsr b be d s := match b with | 0 | 1 | 2 => rfl
  have clearRow : exec (wrGpcr b be d) s = writeGpcr b be d s := match b with | 0 | 1 | 2 => rfl
  rw [setRow, clearRow]
  obtain ⟨t, done, bank, trace, only⟩ :=
    writeAccess_latch (b := b) (be := be) (s := s) (latchSet be d) fun noLane => by rw [noLane, latchSet_noLane]
  obtain ⟨u, done', bank', trace', only'⟩ :=
    writeAccess_latch (b := b) (be := be) (s := s) (latchCleared be d) fun noLane => by rw [noLane, latchCleared_noLane]
  refine ⟨⟨t, done, ?_⟩, u, done', ?_⟩
  · rw [bank]
    exact ⟨fun _ => latchSet_bit be d _, rfl, trace, only⟩
  · rw [bank']
    exact ⟨fun _ => latchCleared_bit be d _, rfl, trace', only'⟩

end Sys2Proof.Machine
end

section
/-! ## A pin notification

Within its precondition a notification moves GPIN and may set one latch of one bank (45_gpio.md R315, R316); outside it the
step is refused (93_implementation_defined.md U16), which is the one way a step stops. -/

namespace Sys2Proof.Machine

/-! ### The edge detector -/

/-- A level reported for pin p is an edge: p is an input and its stored level changes (R315). -/
def isEdge (g : GpioBank) (p : Nat) (level : Bool) : Bool := !g.gpdir.getLsbD p && decide (g.gpin.getLsbD p ≠ level)

/-- Edges of pin p to a level are armed: rising ones by GRER, falling ones by GFER (R316). -/
def isArmed (g : GpioBank) (p : Nat) (level : Bool) : Bool := if level then g.grer.getLsbD p else g.gfer.getLsbD p

theorem edgeDetect_eq (g : GpioBank) (p : Nat) (level : Bool) :
    edgeDetect g p level = { g with gedr := if isArmed g p level then setBit g.gedr p else g.gedr } := by
  have armed : ((level && g.grer.getLsbD p) || (!level && g.gfer.getLsbD p)) = isArmed g p level := by
    cases level <;> simp [isArmed]
  rw [edgeDetect, armed]
  split <;> rfl

/-- The bank after a notification: GPIN takes the level, and the latch is set exactly on an armed edge. -/
theorem pinnedBank_eq (g : GpioBank) (p : Nat) (level : Bool) :
    pinnedBank g p level =
      { g with
        gpin := putBit g.gpin p level
        gedr := if isEdge g p level && isArmed g p level then setBit g.gedr p else g.gedr } := by
  have edge : (!g.gpdir.getLsbD p && g.gpin.getLsbD p != level) = isEdge g p level := by
    rw [isEdge, decide_not, bne, beq_eq_decide]
  rw [pinnedBank, edge, edgeDetect_eq]
  cases isEdge g p level with
  | false => rfl
  | true => rfl

theorem pinnedBank_gpin_bit (g : GpioBank) {p : Nat} (hp : p < 32) (level : Bool) (k : Nat) :
    (pinnedBank g p level).gpin.getLsbD k = if k = p then level else g.gpin.getLsbD k := by
  rw [pinnedBank_eq]
  exact putBit_bit _ _ _ _ hp

theorem pinnedBank_gedr_bit (g : GpioBank) (p : Nat) (level : Bool) {k : Nat} (hk : k < 32) :
    (pinnedBank g p level).gedr.getLsbD k =
      (g.gedr.getLsbD k || (decide (k = p) && (isEdge g p level && isArmed g p level))) := by
  rw [pinnedBank_eq]
  cases isEdge g p level && isArmed g p level with
  | false => rw [if_neg Bool.false_ne_true, Bool.and_false, Bool.or_false]
  | true => rw [if_pos rfl, setBit_bit, decide_eq_true hk, Bool.true_and, Bool.and_true]

/-! ### The step -/

theorem pinStep_bank_same (b : Bank) (p : Nat) (level : Bool) (s : State) :
    (pinStep b p level s).bank b = pinnedBank (s.bank b) p level := by
  rw [pinStep, intcUpdate_bank, State.answer_bank, State.setBank_bank_same]

theorem pinStep_bank_other {b c : Bank} (other : c ≠ b) (p : Nat) (level : Bool) (s : State) :
    (pinStep b p level s).bank c = s.bank c := by
  rw [pinStep, intcUpdate_bank, State.answer_bank, State.setBank_bank_other _ _ other]

/-- Settles O53: the bank of the pin is `pinnedBank` of what it was, and `IntcUpdate` follows. -/
theorem pinStepDetectsArmedEdgesOnInputPins : Obligations.PinStepDetectsArmedEdgesOnInputPins := by
  intro b p level s hp
  rw [pinStep_bank_same]
  refine ⟨fun k _ => pinnedBank_gpin_bit _ hp level k, fun k hk => ?_, ?_,
    fun c other => pinStep_bank_other other p level s, rfl, rfl, rfl, .of_eq rfl, rfl, ⟨rfl, rfl, rfl⟩, rfl, rfl,
    intcUpdate_settled _⟩
  · rw [pinnedBank_gedr_bit _ _ _ hk, isEdge, isArmed, Bool.and_assoc, Bool.and_assoc, Bool.and_assoc]
  · rw [pinnedBank_eq]

/-! ### Where a step stops -/

/-- A notification outside its precondition is refused by its own name (R315; U16). -/
theorem pinOrRefuse_of_not_lt {b p level : Nat} (outside : 3 ≤ b ∨ 32 ≤ p ∨ 2 ≤ level) (s : State) :
    pinOrRefuse b p level s = .refused (.pinOutsidePrecondition b p level) := by
  unfold pinOrRefuse
  split
  · have pinOrLevel : ¬(p < 32 ∧ level < 2) := by omega
    simp only [Bool.and_eq_true, decide_eq_true_eq, if_neg pinOrLevel]
  · rfl

/-- A notification within its precondition, its arguments raw, completes (R315). -/
theorem pinOrRefuse_completes {b p level : Nat} (hb : b < 3) (hp : p < 32) (hl : level < 2) (s : State) :
    ∃ t, pinOrRefuse b p level s = .next t := by
  obtain ⟨high, rfl⟩ : ∃ high : Bool, level = high.toNat := ⟨decide (level = 1), by interval_cases level <;> rfl⟩
  exact ⟨_, pinOrRefuse_of_lt hp ⟨b, hb⟩ high s⟩

/-- An access, read or write, completes (60_exceptions.md R330). -/
theorem exec_completes (i : Instr) (s : State) : ∃ t, exec i s = .next t := by
  obtain ⟨-, answers⟩ | ⟨-, f, eq, -⟩ := readsOnly_or_writes i
  · obtain ⟨v, n, eq⟩ := answers s
    exact ⟨_, eq⟩
  · exact ⟨_, eq s⟩

/-- What the environment applies completes, but for a notification outside its precondition. -/
theorem applyStimulus_completes {x : Stimulus}
    (within : ∀ b p level, x = .pin b p level → b < 3 ∧ p < 32 ∧ level < 2) (s : State) :
    ∃ t, applyStimulus x s = .next t := by
  cases x with
  | access a => exact exec_completes (decode a) s
  | pin b p level =>
    obtain ⟨hb, hp, hl⟩ := within b p level rfl
    exact pinOrRefuse_completes hb hp hl s
  | tick | reset | mem | ports => exact ⟨_, rfl⟩

/-- Settles O11: a step is what its first stimulus does, and only a notification outside its precondition is refused. -/
theorem onlyAPinOutsideItsPreconditionStops : Obligations.OnlyAPinOutsideItsPreconditionStops := by
  intro s
  refine ⟨fun b p level rest waiting outside => ?_, fun within => ?_⟩
  · rw [step_of_inbox_cons waiting]
    exact pinOrRefuse_of_not_lt outside _
  · cases waiting : s.inbox with
    | nil => exact ⟨s, step_of_inbox_nil waiting⟩
    | cons x rest =>
      rw [step_of_inbox_cons waiting]
      refine applyStimulus_completes (fun b p level pin => within b p level rest ?_) _
      rw [waiting, pin]

end Sys2Proof.Machine
end

section
/-! ## Exceptions

The block takes none: the set of exceptions is empty (60_exceptions.md R330). -/

namespace Sys2Proof.Machine

/-- Settles O10: every access is a read, which answers a value, or a write with the two outcomes of `writeAccess`
(`readsOnly_or_writes`), and `exec_completes` takes both. -/
theorem everyInstructionCompletes : Obligations.EveryInstructionCompletes := by
  intro i s
  exact exec_completes i s

end Sys2Proof.Machine
end

section
/-! ## Reset

`Reset` gives every register and every hidden element its reset value and keeps the memory image and the trace (R360, R361).
It leaves no slot armed, no channel running and no frame enabled, so no later tick has an event to fire (R362). -/

namespace Sys2Proof.Machine

/-! ### The registers after a reset -/

/-- A read whose word is 0 reads 0. -/
theorem Reads.of_eq_zero {i : Instr} {s : State} {v : Word} (read : Reads i s v) (zero : v = 0) : Reads i s 0 :=
  zero ▸ read

/-- The registers of a DMA channel at its reset value read 0, and so does DINT with nothing pending. -/
theorem resetStep_dmaReads (s : State) (ch : Channel) (be : Lanes) :
    ∀ r ∈ [Instr.rdDcsr ch be, .rdDint be, .rdDdadr ch be, .rdDsadr ch be, .rdDtadr ch be, .rdDcmd ch be],
      Reads r (resetStep s) 0 := by
  obtain ⟨-, -, ddadr, dsadr, dtadr, dcmd⟩ := dmaReadsReturnTheRegisters (resetStep s) ch be
  have dcsr : Reads (.rdDcsr ch be) (resetStep s) (dcsrWord ((resetStep s).chan ch)) := rfl
  rw [resetStep_chan] at dcsr ddadr dsadr dtadr dcmd
  simp only [List.forall_mem_cons]
  exact ⟨dcsr.of_eq_zero (by decide), rfl, ddadr, dsadr, dtadr, dcmd, List.forall_mem_nil _⟩

/-- The registers of the timer unit at its reset value read 0. -/
theorem resetStep_timerReads (s : State) (i : Slot) (be : Lanes) :
    ∀ r ∈ [Instr.rdOsmr i be, .rdOscr be, .rdOssr be, .rdOier be], Reads r (resetStep s) 0 := by
  obtain ⟨osmr, oscr, -⟩ := timerReadsReturnTheRegisters (resetStep s) i be
  have noMatchValue : (resetStep s).timer.osmr[i] = 0 := by simp [Timer.reset]
  simp only [List.forall_mem_cons]
  exact ⟨osmr.of_eq_zero noMatchValue, oscr, rfl, rfl, List.forall_mem_nil _⟩

/-- The registers and both views of the interrupt controller at its reset value read 0. -/
theorem resetStep_intcReads (s : State) (be : Lanes) :
    ∀ r ∈ [Instr.rdIcip be, .rdIcmr be, .rdIclr be, .rdIcfp be, .rdIcpr be], Reads r (resetStep s) 0 := by
  obtain ⟨-, icmr, iclr, -, icpr⟩ := intcReadsReturnTheRegistersAndViews (resetStep s) be
  have icip : Reads (.rdIcip be) (resetStep s) (icipView (resetStep s).intc) := rfl
  have icfp : Reads (.rdIcfp be) (resetStep s) (icfpView (resetStep s).intc) := rfl
  rw [resetStep_intc] at icip icmr iclr icfp icpr
  simp only [List.forall_mem_cons]
  exact ⟨icip.of_eq_zero (by decide), icmr, iclr, icfp.of_eq_zero (by decide), icpr, List.forall_mem_nil _⟩

/-- The registers of the LCD controller and of an LCD channel at their reset values read 0. -/
theorem resetStep_lcdReads (s : State) (n : LcdCh) (be : Lanes) :
    ∀ r ∈ [Instr.rdLccr0 be, .rdLccr2 be, .rdLccr3 be, .rdLcsr be, .rdFdadr n be, .rdFsadr n be, .rdFidr n be,
        .rdLdcmd n be], Reads r (resetStep s) 0 := by
  obtain ⟨-, -, -, -, fdadr, fsadr, fidr, ldcmd⟩ := lcdReadsReturnTheRegisters (resetStep s) n be
  have lcsr : Reads (.rdLcsr be) (resetStep s) (lcsrWord (resetStep s).lcd) := rfl
  have noFlag : lcsrWord (resetStep s).lcd = 0 := by simp [lcsrWord, Lcd.reset]
  rw [resetStep_lcdChan] at fdadr fsadr fidr ldcmd
  simp only [List.forall_mem_cons]
  exact ⟨rfl, rfl, rfl, lcsr.of_eq_zero noFlag, fdadr, fsadr, fidr, ldcmd, List.forall_mem_nil _⟩

/-- The registers and the levels of a GPIO bank at its reset value read 0. -/
theorem resetStep_gpioReads (s : State) (b : Bank) (be : Lanes) :
    ∀ r ∈ [rdGplr b be, rdGpdr b be, rdGpsr b be, rdGpcr b be, rdGrer b be, rdGfer b be, rdGedr b be],
      Reads r (resetStep s) 0 := by
  obtain ⟨⟨v, gplr, levels⟩, gpdir, gpsr, gpcr, grer, gfer, gedr⟩ :=
    gpioReadsReturnTheRegistersAndLevels (resetStep s) b be
  rw [resetStep_bank] at gpdir grer gfer gedr
  have low : v = 0 := BitVec.eq_of_getLsbD_eq fun k hk => by
    rw [levels k hk, resetStep_bank]
    simp [GpioBank.reset]
  simp only [List.forall_mem_cons]
  exact ⟨gplr.of_eq_zero low, gpdir, gpsr, gpcr, grer, gfer, gedr, List.forall_mem_nil _⟩

/-- `Reset` gives the state after the first reset, but for the palette, the environment's own and the draw number. -/
theorem resetStep_eq (s : State) :
    resetStep s = { State.reset with
      lcd := { State.reset.lcd with palette := (resetStep s).lcd.palette }
      mem := s.mem, trace := s.trace, inbox := s.inbox, draws := s.draws + 1 } :=
  calc resetStep s
      = (resetStep s).setIntc (resetStep s).intc := rfl
    _ = (resetStep s).setIntc Intc.reset := by rw [resetStep_intc]

/-- Settles O55: unit by unit the registers read their reset values, and `resetStep_eq` has the whole state. -/
theorem resetRestoresEveryRegister : Obligations.ResetRestoresEveryRegister := by
  intro s be ch i n b
  refine ⟨?_, resetStep_eq s, rfl, ?_, rfl, ?_, ?_, ?_, rfl, rfl⟩
  · have lcdAndGpio := List.forall_mem_append.2 ⟨resetStep_lcdReads s n be, resetStep_gpioReads s b be⟩
    have intcOn := List.forall_mem_append.2 ⟨resetStep_intcReads s be, lcdAndGpio⟩
    have timerOn := List.forall_mem_append.2 ⟨resetStep_timerReads s i be, intcOn⟩
    exact List.forall_mem_append.2 ⟨resetStep_dmaReads s ch be, timerOn⟩
  · rw [State.reset_chan]
    rfl
  · rw [State.reset_bank]
    rfl
  · rw [State.reset_bank]
    rfl
  · rw [State.reset_lcdChan]
    rfl

/-! ### Ticks with nothing scheduled -/

/-- No sub-block has an event in flight: no slot is armed, no DMA channel runs and no LCD channel is enabled (R138). -/
structure NothingScheduled (s : State) : Prop where
  unarmed : s.timer.armed = 0
  idle : ∀ ch : Channel, (s.chan ch).run = false
  disabled : ∀ n : LcdCh, s.lcd.lcden.getLsbD n = false

/-- Then a tick fires no event. -/
theorem NothingScheduled.firingOrder_eq {s : State} (h : NothingScheduled s) : firingOrder s = [] := by
  refine List.eq_nil_iff_forall_not_mem.2 fun e => ?_
  cases e with
  | tmr i =>
    rw [tmr_mem_firingOrder, Matches, h.unarmed]
    rintro ⟨armed, -⟩
    exact Bool.noConfusion (BitVec.getLsbD_zero.symm.trans armed)
  | dma ch => exact dma_not_due_of_idle h.idle ch
  | lcd n => exact lcd_not_due_of_disabled h.disabled n

theorem countDownDma_idle {c : DmaChannel} (idle : c.run = false) : countDownDma c = c := by
  rw [countDownDma, idle, if_neg Bool.false_ne_true]

/-- And only the counter moves: no countdown runs. -/
theorem NothingScheduled.advanceTime_eq {s : State} (h : NothingScheduled s) :
    advanceTime s = s.setTimer (countTick s.timer) := by
  have dma : (Vector.ofFn fun ch : Channel => countDownDma s.dma.chan[ch]) = s.dma.chan := by
    refine Vector.ext fun k hk => ?_
    rw [Vector.getElem_ofFn]
    exact countDownDma_idle (h.idle ⟨k, hk⟩)
  have lcd : (Vector.ofFn fun n : LcdCh => countDownLcd (s.lcd.lcden.getLsbD n) s.lcd.chan[n]) = s.lcd.chan := by
    refine Vector.ext fun k hk => ?_
    rw [Vector.getElem_ofFn, h.disabled ⟨k, hk⟩]
    rfl
  rw [advanceTime, dma, lcd]
  rfl

/-- With the lines settled such a tick does nothing but count. -/
theorem NothingScheduled.tickStep_eq {s : State} (h : NothingScheduled s) (settled : LinesSettled s) :
    tickStep s = (s.setTimer (countTick s.timer)).draw.answer none := by
  obtain ⟨latched, driven⟩ := settled
  rw [tickStep, h.firingOrder_eq, fireAll, h.advanceTime_eq]
  exact intcUpdate_of_latched _ latched driven

/-! ### Ticks after a reset -/

/-- The state after a reset with the counter at k: the one k ticks later. -/
def countedSinceReset (s : State) (k : Nat) : State :=
  { resetStep s with
    timer := { Timer.reset with oscr := BitVec.ofNat 32 k }
    draws := s.draws + 1 + k }

theorem countedSinceReset_chan (s : State) (k : Nat) (ch : Channel) :
    (countedSinceReset s k).chan ch = DmaChannel.reset := resetStep_chan s ch

theorem countedSinceReset_intc (s : State) (k : Nat) : (countedSinceReset s k).intc = Intc.reset := resetStep_intc s

/-- One more count. -/
theorem countedSinceReset_succ (s : State) (k : Nat) : countedSinceReset s (k + 1) =
    ((countedSinceReset s k).setTimer (countTick (countedSinceReset s k).timer)).draw.answer none := by
  rw [countedSinceReset, BitVec.ofNat_add]
  rfl

/-- A reset leaves no event scheduled, and counting schedules none (R362). -/
theorem countedSinceReset_nothingScheduled (s : State) (k : Nat) : NothingScheduled (countedSinceReset s k) where
  unarmed := rfl
  idle := fun ch => congrArg (·.run) (countedSinceReset_chan s k ch)
  disabled := Lcd.reset_lcden s.draws

/-- A reset settles the lines, and no source depends on the counter. -/
theorem countedSinceReset_linesSettled (s : State) (k : Nat) : LinesSettled (countedSinceReset s k) :=
  show LinesSettled (resetStep s) from intcUpdate_linesSettled _

/-- From a reset on, ticks do nothing but count (R362, R363). -/
theorem ticks_resetStep (k : Nat) (s : State) : ticks k (resetStep s) = countedSinceReset s k := by
  induction k with
  | zero => rfl
  | succ k ih =>
    rw [ticks, ih, countedSinceReset_succ]
    exact (countedSinceReset_nothingScheduled s k).tickStep_eq (countedSinceReset_linesSettled s k)

/-- Settles O56: `ticks_resetStep` has the whole state, in which every flag, line and pending bit has its reset value. -/
theorem resetCancelsEveryEvent : Obligations.ResetCancelsEveryEvent := by
  intro s k
  rw [ticks_resetStep, countedSinceReset_intc]
  refine ⟨.of_eq rfl, rfl, rfl, rfl, rfl, rfl, rfl, fun ch => ?_, rfl, rfl, rfl⟩
  rw [countedSinceReset_chan]
  rfl

end Sys2Proof.Machine
end
